-- ==== Sys2Proof/Word.lean ====
section
/-! DEFINITION. The word types of the block: every access is one byte wide (spec/20_memory.md R74). -/

namespace Sys2Proof

/-- A byte, the width of every access of the block (R74). -/
abbrev Byte := BitVec 8

/-- A 16-bit timer quantity (R30). -/
abbrev Count := BitVec 16

end Sys2Proof
end

