-- ==== Sys2Proof/Syntax.lean ====
section
/-! DEFINITION. The operations of the block as syntax: one constructor of `Instr` for each of the 104 rows of
spec/opcode_table.json, the fields of an FM register write (spec/30_encoding.md R97), and the access records an
operation arrives in (spec/20_memory.md R70). -/

namespace Sys2Proof

/-- The two MIDI byte streams (R45, R70). -/
inductive Stream where
  | midiIn
  | host
deriving DecidableEq, Repr

/-- The six firmware registers, named and not numbered (R92). -/
inductive FwReg where
  | pa
  | pb
  | pc
  | mode
  | fmSel
  | fmData
deriving DecidableEq, Repr

/-- The fields of a PIU mode word (R115); a direction is `true` for an input. -/
structure ModeWord where
  ma : BitVec 2
  dirA : Bool
  dirCh : Bool
  mb : Bool
  dirB : Bool
  dirCl : Bool
deriving DecidableEq, Repr

/-- What a byte written to a PIU mode register is (R115): a port C bit set/reset command, a mode word, or a mode
word that asks for bidirectional mode (R277), of which the low six bits are kept. -/
inductive ModeWrite where
  | bitSet (n : BitVec 3) (b : Bool)
  | word (m : ModeWord)
  | bidirectional (low : BitVec 6)
deriving DecidableEq, Repr

/-- A write to the FM register space, its address and fields decoded by R95 to R98; ignored bits are gone. -/
inductive FmReg where
  /-- 0x01 TEST (R133) -/
  | test (v : Byte)
  /-- 0x08 KON (R134) -/
  | kon (c : BitVec 3) (m1 c1 m2 c2 : Bool)
  /-- 0x0F NOISE (R135) -/
  | noise (ne : Bool) (nfrq : BitVec 5)
  /-- 0x10 CLKA1 (R136) -/
  | clka1 (hi : Byte)
  /-- 0x11 CLKA2 (R137) -/
  | clka2 (lo : BitVec 2)
  /-- 0x12 CLKB (R138) -/
  | clkb (v : Byte)
  /-- 0x14 TIMER (R139) -/
  | timer (csm resetB resetA irqenB irqenA loadB loadA : Bool)
  /-- 0x18 LFRQ (R140) -/
  | lfrq (v : Byte)
  /-- 0x19 PMD/AMD (R141) -/
  | depth (selPmd : Bool) (d : BitVec 7)
  /-- 0x1B CT/W (R142) -/
  | ctW (ct w : BitVec 2)
  /-- 0x20 + c RL/FB/CON (R143) -/
  | rlFbCon (c : BitVec 3) (r l : Bool) (fb con : BitVec 3)
  /-- 0x28 + c KC (R144) -/
  | kc (c : BitVec 3) (kc : BitVec 7)
  /-- 0x30 + c KF (R145) -/
  | kf (c : BitVec 3) (kf : BitVec 6)
  /-- 0x38 + c PMS/AMS (R146) -/
  | pmsAms (c : BitVec 3) (pms : BitVec 3) (ams : BitVec 2)
  /-- 0x40 + 8s + c DT1/MUL (R147) -/
  | dt1Mul (s : BitVec 2) (c : BitVec 3) (dt1 : BitVec 3) (mul : BitVec 4)
  /-- 0x60 + 8s + c TL (R148) -/
  | tl (s : BitVec 2) (c : BitVec 3) (tl : BitVec 7)
  /-- 0x80 + 8s + c KS/AR (R149) -/
  | ksAr (s : BitVec 2) (c : BitVec 3) (ks : BitVec 2) (ar : BitVec 5)
  /-- 0xA0 + 8s + c AMSEN/D1R (R150) -/
  | amsD1r (s : BitVec 2) (c : BitVec 3) (amsEn : Bool) (d1r : BitVec 5)
  /-- 0xC0 + 8s + c DT2/D2R (R151) -/
  | dt2D2r (s : BitVec 2) (c : BitVec 3) (dt2 : BitVec 2) (d2r : BitVec 5)
  /-- 0xE0 + 8s + c D1L/RR (R152) -/
  | d1lRr (s : BitVec 2) (c : BitVec 3) (d1l rr : BitVec 4)
  /-- the addresses of R98 (R153) -/
  | unassigned
deriving DecidableEq, Repr

/-- The operations of the block, one constructor for each row of spec/opcode_table.json, in the table's order. -/
inductive Instr where
  -- HOSTW: host port writes (R90)
  /-- OUT PIU_H.PA (R279) -/
  | outPiuHPa (v : Byte)
  /-- OUT PIU_H.PB (R279) -/
  | outPiuHPb (v : Byte)
  /-- OUT PIU_H.PC (R284) -/
  | outPiuHPc (v : Byte)
  /-- OUT PIU_H.MODE, mode word (R276) -/
  | outPiuHMode (m : ModeWord)
  /-- OUT PIU_H.MODE, bidirectional mode word, with its low six bits (R277) -/
  | outPiuHModeBidir (low : BitVec 6)
  /-- OUT PIU_H.MODE, port C bit set/reset (R278) -/
  | outPiuHBsr (n : BitVec 3) (b : Bool)
  /-- OUT PIT.CNT0 (R242) -/
  | outPitCnt0 (v : Byte)
  /-- OUT PIT.CNT1 (R242) -/
  | outPitCnt1 (v : Byte)
  /-- OUT PIT.CNT2 (R242) -/
  | outPitCnt2 (v : Byte)
  /-- OUT PIT.CMD, counter latch (R240) -/
  | outPitLatch (sc : BitVec 2)
  /-- OUT PIT.CMD, control (R240) -/
  | outPitControl (sc rw : BitVec 2) (mode : BitVec 3) (bcd : Bool)
  /-- OUT PIT.CMD with sc = 3, with its low six bits (R241) -/
  | outPitIgnored (low : BitVec 6)
  /-- OUT NET.TCR at offset 8 + mirror (R314) -/
  | outNetTcr (mirror : BitVec 2) (v : Byte)
  /-- OUT NET.TSR at offset 12 + mirror (R316) -/
  | outNetTsr (mirror : BitVec 2) (v : Byte)
  -- HOSTR: host port reads (R90)
  /-- IN PIU_H.PA (R280, R281) -/
  | inPiuHPa
  /-- IN PIU_H.PB (R280, R281) -/
  | inPiuHPb
  /-- IN PIU_H.PC (R283) -/
  | inPiuHPc
  /-- IN PIU_H.MODE, write-only (R123) -/
  | inPiuHMode
  /-- IN PIT.CNT0 (R245) -/
  | inPitCnt0
  /-- IN PIT.CNT1 (R245) -/
  | inPitCnt1
  /-- IN PIT.CNT2 (R245) -/
  | inPitCnt2
  /-- IN PIT.CMD, write-only (R123) -/
  | inPitCmd
  /-- IN NET.TCR at offset 8 + mirror (R315) -/
  | inNetTcr (mirror : BitVec 2)
  /-- IN NET.TSR at offset 12 + mirror (R316) -/
  | inNetTsr (mirror : BitVec 2)
  -- FWW: firmware register writes (R92)
  /-- FWOUT FW_PA (R279) -/
  | fwoutPa (v : Byte)
  /-- FWOUT FW_PB (R279) -/
  | fwoutPb (v : Byte)
  /-- FWOUT FW_PC (R284) -/
  | fwoutPc (v : Byte)
  /-- FWOUT FW_MODE, mode word (R276) -/
  | fwoutMode (m : ModeWord)
  /-- FWOUT FW_MODE, bidirectional mode word, with its low six bits (R277) -/
  | fwoutModeBidir (low : BitVec 6)
  /-- FWOUT FW_MODE, port C bit set/reset (R278) -/
  | fwoutBsr (n : BitVec 3) (b : Bool)
  /-- FWOUT FM_SEL (R130) -/
  | fwoutFmSel (v : Byte)
  /-- FWOUT FM_DATA (R131) -/
  | fwoutFmData (v : Byte)
  -- FWR: firmware register reads (R92)
  /-- FWIN FW_PA (R280, R281) -/
  | fwinPa
  /-- FWIN FW_PB (R280, R281) -/
  | fwinPb
  /-- FWIN FW_PC (R283) -/
  | fwinPc
  /-- FWIN FW_MODE, write-only (R123) -/
  | fwinMode
  /-- FWIN FM_SEL, write-only (R92) -/
  | fwinFmSel
  /-- FWIN FM_DATA, the FM status (R132) -/
  | fwinFmData
  -- FMW: the firmware's FM pair at one address (R79, R97, R98)
  /-- FMW TEST (R133) -/
  | fmwTest (v : Byte)
  /-- FMW KON (R134) -/
  | fmwKon (c : BitVec 3) (m1 c1 m2 c2 : Bool)
  /-- FMW NOISE (R135) -/
  | fmwNoise (ne : Bool) (nfrq : BitVec 5)
  /-- FMW CLKA1 (R136) -/
  | fmwClka1 (hi : Byte)
  /-- FMW CLKA2 (R137) -/
  | fmwClka2 (lo : BitVec 2)
  /-- FMW CLKB (R138) -/
  | fmwClkb (v : Byte)
  /-- FMW TIMER (R139) -/
  | fmwTimer (csm resetB resetA irqenB irqenA loadB loadA : Bool)
  /-- FMW LFRQ (R140) -/
  | fmwLfrq (v : Byte)
  /-- FMW PMD/AMD (R141) -/
  | fmwDepth (selPmd : Bool) (d : BitVec 7)
  /-- FMW CT/W (R142) -/
  | fmwCtW (ct w : BitVec 2)
  /-- FMW RL/FB/CON (R143) -/
  | fmwRlFbCon (c : BitVec 3) (r l : Bool) (fb con : BitVec 3)
  /-- FMW KC (R144) -/
  | fmwKc (c : BitVec 3) (kc : BitVec 7)
  /-- FMW KF (R145) -/
  | fmwKf (c : BitVec 3) (kf : BitVec 6)
  /-- FMW PMS/AMS (R146) -/
  | fmwPmsAms (c : BitVec 3) (pms : BitVec 3) (ams : BitVec 2)
  /-- FMW DT1/MUL (R147) -/
  | fmwDt1Mul (s : BitVec 2) (c : BitVec 3) (dt1 : BitVec 3) (mul : BitVec 4)
  /-- FMW TL (R148) -/
  | fmwTl (s : BitVec 2) (c : BitVec 3) (tl : BitVec 7)
  /-- FMW KS/AR (R149) -/
  | fmwKsAr (s : BitVec 2) (c : BitVec 3) (ks : BitVec 2) (ar : BitVec 5)
  /-- FMW AMSEN/D1R (R150) -/
  | fmwAmsD1r (s : BitVec 2) (c : BitVec 3) (amsEn : Bool) (d1r : BitVec 5)
  /-- FMW DT2/D2R (R151) -/
  | fmwDt2D2r (s : BitVec 2) (c : BitVec 3) (dt2 : BitVec 2) (d2r : BitVec 5)
  /-- FMW D1L/RR (R152) -/
  | fmwD1lRr (s : BitVec 2) (c : BitVec 3) (d1l rr : BitVec 4)
  -- FMW to the unassigned addresses of R98 (R153)
  /-- FMW unassigned 0x00 (R153) -/
  | fmwUnassigned00 (v : Byte)
  /-- FMW unassigned 0x02 (R153) -/
  | fmwUnassigned02 (v : Byte)
  /-- FMW unassigned 0x03 (R153) -/
  | fmwUnassigned03 (v : Byte)
  /-- FMW unassigned 0x04 (R153) -/
  | fmwUnassigned04 (v : Byte)
  /-- FMW unassigned 0x05 (R153) -/
  | fmwUnassigned05 (v : Byte)
  /-- FMW unassigned 0x06 (R153) -/
  | fmwUnassigned06 (v : Byte)
  /-- FMW unassigned 0x07 (R153) -/
  | fmwUnassigned07 (v : Byte)
  /-- FMW unassigned 0x09 (R153) -/
  | fmwUnassigned09 (v : Byte)
  /-- FMW unassigned 0x0A (R153) -/
  | fmwUnassigned0A (v : Byte)
  /-- FMW unassigned 0x0B (R153) -/
  | fmwUnassigned0B (v : Byte)
  /-- FMW unassigned 0x0C (R153) -/
  | fmwUnassigned0C (v : Byte)
  /-- FMW unassigned 0x0D (R153) -/
  | fmwUnassigned0D (v : Byte)
  /-- FMW unassigned 0x0E (R153) -/
  | fmwUnassigned0E (v : Byte)
  /-- FMW unassigned 0x13 (R153) -/
  | fmwUnassigned13 (v : Byte)
  /-- FMW unassigned 0x15 (R153) -/
  | fmwUnassigned15 (v : Byte)
  /-- FMW unassigned 0x16 (R153) -/
  | fmwUnassigned16 (v : Byte)
  /-- FMW unassigned 0x17 (R153) -/
  | fmwUnassigned17 (v : Byte)
  /-- FMW unassigned 0x1A (R153) -/
  | fmwUnassigned1A (v : Byte)
  /-- FMW unassigned 0x1C (R153) -/
  | fmwUnassigned1C (v : Byte)
  /-- FMW unassigned 0x1D (R153) -/
  | fmwUnassigned1D (v : Byte)
  /-- FMW unassigned 0x1E (R153) -/
  | fmwUnassigned1E (v : Byte)
  /-- FMW unassigned 0x1F (R153) -/
  | fmwUnassigned1F (v : Byte)
  -- MIDI: one byte fed to the classifier of stream s (R340), by byte class (R120)
  /-- data byte 0x00..0x7F (R342) -/
  | midiData (s : Stream) (data : BitVec 7)
  /-- status 0x8n note off (R352) -/
  | midiNoteOff (s : Stream) (channel : BitVec 4)
  /-- status 0x9n note on (R352) -/
  | midiNoteOn (s : Stream) (channel : BitVec 4)
  /-- status 0xAn polyphonic key pressure (R352) -/
  | midiPolyPressure (s : Stream) (channel : BitVec 4)
  /-- status 0xBn control change (R352) -/
  | midiControlChange (s : Stream) (channel : BitVec 4)
  /-- status 0xCn program change (R352) -/
  | midiProgramChange (s : Stream) (channel : BitVec 4)
  /-- status 0xDn channel pressure (R352) -/
  | midiChannelPressure (s : Stream) (channel : BitVec 4)
  /-- status 0xEn pitch bend (R352) -/
  | midiPitchBend (s : Stream) (channel : BitVec 4)
  /-- status 0xF0 system exclusive (R353) -/
  | midiSysEx (s : Stream)
  /-- status 0xF1 time code quarter frame (R353) -/
  | midiTimeCode (s : Stream)
  /-- status 0xF2 song position (R353) -/
  | midiSongPosition (s : Stream)
  /-- status 0xF3 song select (R353) -/
  | midiSongSelect (s : Stream)
  /-- status 0xF4, undefined system common (R353) -/
  | midiUndefinedF4 (s : Stream)
  /-- status 0xF5, undefined system common (R353) -/
  | midiUndefinedF5 (s : Stream)
  /-- status 0xF6 tune request (R353) -/
  | midiTuneRequest (s : Stream)
  /-- status 0xF7 end of exclusive (R353) -/
  | midiEndOfExclusive (s : Stream)
  /-- status 0xF8..0xFF system real-time (R353) -/
  | midiRealTime (s : Stream) (rt : BitVec 3)
  -- OP: the operations of R10 and R122 with no word of their own
  /-- SAMPLE, AdvanceSample (R170) -/
  | sample
  /-- SAMPLE n, AdvanceSamples (R411) -/
  | samples (n : Nat)
  /-- TICK, PitTick (R247) -/
  | tick
  /-- FMW a, v: the FwFmWrite pair at any address (R79) -/
  | fmwPair (a v : Byte)
  /-- FLOW s, m: SetFlow (R350) -/
  | flow (s : Stream) (m : BitVec 3)
  /-- MIDI s, b: MidiFeed of any byte (R340) -/
  | midiFeed (s : Stream) (b : Byte)
  /-- RESET (R390) -/
  | reset
deriving DecidableEq, Repr

/-- The wire an operation arrives on: the access paths of R70 and the operations of R10 that no word encodes. The
path is no bit of the word (R72, R377: fixed wiring). -/
inductive Path where
  /-- `PortWrite`: a 12-bit word, the offset over the byte -/
  | hostWrite
  /-- `PortRead`: a 4-bit word, the offset -/
  | hostRead
  /-- `FwWrite` to a named register: the byte -/
  | fwWrite (r : FwReg)
  /-- `FwRead` of a named register: no word -/
  | fwRead (r : FwReg)
  /-- the FM pair written as one 16-bit word, the address over the byte -/
  | fmWrite
  /-- `MidiFeed` on a stream: the byte -/
  | midi (s : Stream)
  /-- `AdvanceSample` -/
  | sample
  /-- `AdvanceSamples`: the word is the count -/
  | samples
  /-- `PitTick` -/
  | tick
  /-- `FwFmWrite(a, v)` as the operation of R79: the address over the byte -/
  | fmPair
  /-- `SetFlow` of a stream: a byte whose bits 2:0 count -/
  | flow (s : Stream)
  /-- `MidiFeed` as the operation of R340: the byte -/
  | midiOp (s : Stream)
  /-- `Reset` -/
  | reset
deriving DecidableEq, Repr

/-- One operation as it arrives at the block: the path and the word on it, bits numbered as spec/opcode_table.json
numbers them. -/
structure Access where
  path : Path
  word : Nat
deriving DecidableEq, Repr

/-- Why a record is no operation (U9: "reserved program encodings: not an operation"). -/
inductive DecodeError where
  /-- the word has a bit above the width of its path -/
  | wordTooWide (p : Path)
  /-- a non-zero word on a path whose operation takes none -/
  | wordOnWordlessPath (p : Path)
deriving DecidableEq, Repr

end Sys2Proof
end

