-- ==== Sys2Proof/WellFormed.lean ====
section
/-! DEFINITION. Which terms of `Instr` are operations of the block. The field types carry the widths; what is left is
that a row does not name an encoding that another row of spec/opcode_table.json takes. -/

namespace Sys2Proof

/-- A mode word of the plain row: group A is basic or strobed (R115); `ma` 2 or 3 is the refused row (R277). -/
def ModeWord.wellFormed (m : ModeWord) : Bool :=
  m.ma == 0 || m.ma == 1

/-- A latch command names one of the three counters; `sc` = 3 is the ignored row (R240, R241). -/
def latchWellFormed (sc : BitVec 2) : Bool :=
  sc != 3

/-- A control command names a counter, and its `rw` is not 0, which is the latch command (R240, R241). -/
def controlWellFormed (sc rw : BitVec 2) : Bool :=
  sc != 3 && rw != 0

/-- The term is an operation of the block. -/
def Instr.wellFormed : Instr → Bool
  | .outPiuHPa _ => true
  | .outPiuHPb _ => true
  | .outPiuHPc _ => true
  | .outPiuHMode m => m.wellFormed
  | .outPiuHModeBidir _ => true
  | .outPiuHBsr _ _ => true
  | .outPitCnt0 _ => true
  | .outPitCnt1 _ => true
  | .outPitCnt2 _ => true
  | .outPitLatch sc => latchWellFormed sc
  | .outPitControl sc rw _ _ => controlWellFormed sc rw
  | .outPitIgnored _ => true
  | .outNetTcr _ _ => true
  | .outNetTsr _ _ => true
  | .inPiuHPa => true
  | .inPiuHPb => true
  | .inPiuHPc => true
  | .inPiuHMode => true
  | .inPitCnt0 => true
  | .inPitCnt1 => true
  | .inPitCnt2 => true
  | .inPitCmd => true
  | .inNetTcr _ => true
  | .inNetTsr _ => true
  | .fwoutPa _ => true
  | .fwoutPb _ => true
  | .fwoutPc _ => true
  | .fwoutMode m => m.wellFormed
  | .fwoutModeBidir _ => true
  | .fwoutBsr _ _ => true
  | .fwoutFmSel _ => true
  | .fwoutFmData _ => true
  | .fwinPa => true
  | .fwinPb => true
  | .fwinPc => true
  | .fwinMode => true
  | .fwinFmSel => true
  | .fwinFmData => true
  | .fmwTest _ => true
  | .fmwKon _ _ _ _ _ => true
  | .fmwNoise _ _ => true
  | .fmwClka1 _ => true
  | .fmwClka2 _ => true
  | .fmwClkb _ => true
  | .fmwTimer _ _ _ _ _ _ _ => true
  | .fmwLfrq _ => true
  | .fmwDepth _ _ => true
  | .fmwCtW _ _ => true
  | .fmwRlFbCon _ _ _ _ _ => true
  | .fmwKc _ _ => true
  | .fmwKf _ _ => true
  | .fmwPmsAms _ _ _ => true
  | .fmwDt1Mul _ _ _ _ => true
  | .fmwTl _ _ _ => true
  | .fmwKsAr _ _ _ _ => true
  | .fmwAmsD1r _ _ _ _ => true
  | .fmwDt2D2r _ _ _ _ => true
  | .fmwD1lRr _ _ _ _ => true
  | .fmwUnassigned00 _ => true
  | .fmwUnassigned02 _ => true
  | .fmwUnassigned03 _ => true
  | .fmwUnassigned04 _ => true
  | .fmwUnassigned05 _ => true
  | .fmwUnassigned06 _ => true
  | .fmwUnassigned07 _ => true
  | .fmwUnassigned09 _ => true
  | .fmwUnassigned0A _ => true
  | .fmwUnassigned0B _ => true
  | .fmwUnassigned0C _ => true
  | .fmwUnassigned0D _ => true
  | .fmwUnassigned0E _ => true
  | .fmwUnassigned13 _ => true
  | .fmwUnassigned15 _ => true
  | .fmwUnassigned16 _ => true
  | .fmwUnassigned17 _ => true
  | .fmwUnassigned1A _ => true
  | .fmwUnassigned1C _ => true
  | .fmwUnassigned1D _ => true
  | .fmwUnassigned1E _ => true
  | .fmwUnassigned1F _ => true
  | .midiData _ _ => true
  | .midiNoteOff _ _ => true
  | .midiNoteOn _ _ => true
  | .midiPolyPressure _ _ => true
  | .midiControlChange _ _ => true
  | .midiProgramChange _ _ => true
  | .midiChannelPressure _ _ => true
  | .midiPitchBend _ _ => true
  | .midiSysEx _ => true
  | .midiTimeCode _ => true
  | .midiSongPosition _ => true
  | .midiSongSelect _ => true
  | .midiUndefinedF4 _ => true
  | .midiUndefinedF5 _ => true
  | .midiTuneRequest _ => true
  | .midiEndOfExclusive _ => true
  | .midiRealTime _ _ => true
  | .sample => true
  | .samples _ => true
  | .tick => true
  | .fmwPair _ _ => true
  | .flow _ _ => true
  | .midiFeed _ _ => true
  | .reset => true

end Sys2Proof
end

