-- ==== Sys2Proof/Decode.lean ====
section
/-! DEFINITION. The decoder, from an access record to an operation, total and refusing by name; after it the encoder;
then the host's numbering of a table word. Written from spec/30_encoding.md and spec/opcode_table.json. -/

namespace Sys2Proof

/-- The fields of a mode word byte (R115). -/
def modeWordOf (v : Byte) : ModeWord where
  ma := v.extractLsb' 5 2
  dirA := v.getLsbD 4
  dirCh := v.getLsbD 3
  mb := v.getLsbD 2
  dirB := v.getLsbD 1
  dirCl := v.getLsbD 0

/-- What a byte written to a PIU mode register is (R115, R277). -/
def decodeMode (v : Byte) : ModeWrite :=
  if v.getLsbD 7 then
    if v.getLsbD 6 then .bidirectional (v.extractLsb' 0 6) else .word (modeWordOf v)
  else .bitSet (v.extractLsb' 1 3) (v.getLsbD 0)

/-- The timer command byte (R105), in the three rows of R240 and R241. -/
def decodePitCommand (v : Byte) : Instr :=
  if v.extractLsb' 6 2 = 3#2 then .outPitIgnored (v.extractLsb' 0 6)
  else if v.extractLsb' 4 2 = 0#2 then .outPitLatch (v.extractLsb' 6 2)
  else .outPitControl (v.extractLsb' 6 2) (v.extractLsb' 4 2) (v.extractLsb' 1 3) (v.getLsbD 0)

/-- A host port write (R90): the offset in bits 11:8, the byte in bits 7:0. -/
def decodeHostWrite (w : BitVec 12) : Instr :=
  let v : Byte := w.extractLsb' 0 8
  match (w.extractLsb' 8 4).toNat with
  | 0 => .outPiuHPa v
  | 1 => .outPiuHPb v
  | 2 => .outPiuHPc v
  | 3 =>
    match decodeMode v with
    | .bitSet n b => .outPiuHBsr n b
    | .word m => .outPiuHMode m
    | .bidirectional low => .outPiuHModeBidir low
  | 4 => .outPitCnt0 v
  | 5 => .outPitCnt1 v
  | 6 => .outPitCnt2 v
  | 7 => decodePitCommand v
  | _ =>
    if w.getLsbD 10 then .outNetTsr (w.extractLsb' 8 2) v else .outNetTcr (w.extractLsb' 8 2) v

/-- A host port read (R90): the offset. -/
def decodeHostRead (w : BitVec 4) : Instr :=
  match w.toNat with
  | 0 => .inPiuHPa
  | 1 => .inPiuHPb
  | 2 => .inPiuHPc
  | 3 => .inPiuHMode
  | 4 => .inPitCnt0
  | 5 => .inPitCnt1
  | 6 => .inPitCnt2
  | 7 => .inPitCmd
  | _ => if w.getLsbD 2 then .inNetTsr (w.extractLsb' 0 2) else .inNetTcr (w.extractLsb' 0 2)

/-- A firmware register write (R92). -/
def decodeFwWrite (r : FwReg) (v : Byte) : Instr :=
  match r with
  | .pa => .fwoutPa v
  | .pb => .fwoutPb v
  | .pc => .fwoutPc v
  | .mode =>
    match decodeMode v with
    | .bitSet n b => .fwoutBsr n b
    | .word m => .fwoutMode m
    | .bidirectional low => .fwoutModeBidir low
  | .fmSel => .fwoutFmSel v
  | .fmData => .fwoutFmData v

/-- A firmware register read (R92). -/
def decodeFwRead (r : FwReg) : Instr :=
  match r with
  | .pa => .fwinPa
  | .pb => .fwinPb
  | .pc => .fwinPc
  | .mode => .fwinMode
  | .fmSel => .fwinFmSel
  | .fmData => .fwinFmData

/-- A system register of the FM space, `a` below 0x20 (R97, R98). -/
def decodeFmSystem (a v : Byte) : FmReg :=
  match a.toNat with
  | 0x01 => .test v
  | 0x08 => .kon (v.extractLsb' 0 3) (v.getLsbD 3) (v.getLsbD 4) (v.getLsbD 5) (v.getLsbD 6)
  | 0x0F => .noise (v.getLsbD 7) (v.extractLsb' 0 5)
  | 0x10 => .clka1 v
  | 0x11 => .clka2 (v.extractLsb' 0 2)
  | 0x12 => .clkb v
  | 0x14 =>
    .timer (v.getLsbD 7) (v.getLsbD 5) (v.getLsbD 4) (v.getLsbD 3) (v.getLsbD 2) (v.getLsbD 1) (v.getLsbD 0)
  | 0x18 => .lfrq v
  | 0x19 => .depth (v.getLsbD 7) (v.extractLsb' 0 7)
  | 0x1B => .ctW (v.extractLsb' 6 2) (v.extractLsb' 0 2)
  | _ => .unassigned

/-- A channel register of the FM space, 0x20 to 0x3F: the channel in `a[2:0]`, the group in `a[4:3]` (R95, R97). -/
def decodeFmChannel (a v : Byte) : FmReg :=
  let c : BitVec 3 := a.extractLsb' 0 3
  match (a.extractLsb' 3 2).toNat with
  | 0 => .rlFbCon c (v.getLsbD 7) (v.getLsbD 6) (v.extractLsb' 3 3) (v.extractLsb' 0 3)
  | 1 => .kc c (v.extractLsb' 0 7)
  | 2 => .kf c (v.extractLsb' 2 6)
  | _ => .pmsAms c (v.extractLsb' 4 3) (v.extractLsb' 0 2)

/-- The FM register map (R95, R97, R98): the class from the address, the operator slot in `a[4:3]`, the parameter
group in `a[7:5]`. -/
def decodeFm (a v : Byte) : FmReg :=
  let c : BitVec 3 := a.extractLsb' 0 3
  let s : BitVec 2 := a.extractLsb' 3 2
  match (a.extractLsb' 5 3).toNat with
  | 0 => decodeFmSystem a v
  | 1 => decodeFmChannel a v
  | 2 => .dt1Mul s c (v.extractLsb' 4 3) (v.extractLsb' 0 4)
  | 3 => .tl s c (v.extractLsb' 0 7)
  | 4 => .ksAr s c (v.extractLsb' 6 2) (v.extractLsb' 0 5)
  | 5 => .amsD1r s c (v.getLsbD 7) (v.extractLsb' 0 5)
  | 6 => .dt2D2r s c (v.extractLsb' 6 2) (v.extractLsb' 0 5)
  | _ => .d1lRr s c (v.extractLsb' 4 4) (v.extractLsb' 0 4)

/-- The row of an unassigned address (R98, R153); the last arm is reached by 0x1F alone. -/
def unassignedAt (a v : Byte) : Instr :=
  match a.toNat with
  | 0x00 => .fmwUnassigned00 v
  | 0x02 => .fmwUnassigned02 v
  | 0x03 => .fmwUnassigned03 v
  | 0x04 => .fmwUnassigned04 v
  | 0x05 => .fmwUnassigned05 v
  | 0x06 => .fmwUnassigned06 v
  | 0x07 => .fmwUnassigned07 v
  | 0x09 => .fmwUnassigned09 v
  | 0x0A => .fmwUnassigned0A v
  | 0x0B => .fmwUnassigned0B v
  | 0x0C => .fmwUnassigned0C v
  | 0x0D => .fmwUnassigned0D v
  | 0x0E => .fmwUnassigned0E v
  | 0x13 => .fmwUnassigned13 v
  | 0x15 => .fmwUnassigned15 v
  | 0x16 => .fmwUnassigned16 v
  | 0x17 => .fmwUnassigned17 v
  | 0x1A => .fmwUnassigned1A v
  | 0x1C => .fmwUnassigned1C v
  | 0x1D => .fmwUnassigned1D v
  | 0x1E => .fmwUnassigned1E v
  | _ => .fmwUnassigned1F v

/-- The FM pair written as one word (R79, R97): the address over the byte. -/
def decodeFmPairRow (a v : Byte) : Instr :=
  match decodeFm a v with
  | .test x => .fmwTest x
  | .kon c m1 c1 m2 c2 => .fmwKon c m1 c1 m2 c2
  | .noise ne nfrq => .fmwNoise ne nfrq
  | .clka1 hi => .fmwClka1 hi
  | .clka2 lo => .fmwClka2 lo
  | .clkb x => .fmwClkb x
  | .timer csm rb ra eb ea lb la => .fmwTimer csm rb ra eb ea lb la
  | .lfrq x => .fmwLfrq x
  | .depth selPmd d => .fmwDepth selPmd d
  | .ctW ct w => .fmwCtW ct w
  | .rlFbCon c r l fb con => .fmwRlFbCon c r l fb con
  | .kc c k => .fmwKc c k
  | .kf c k => .fmwKf c k
  | .pmsAms c pms ams => .fmwPmsAms c pms ams
  | .dt1Mul s c dt1 mul => .fmwDt1Mul s c dt1 mul
  | .tl s c t => .fmwTl s c t
  | .ksAr s c ks ar => .fmwKsAr s c ks ar
  | .amsD1r s c e d => .fmwAmsD1r s c e d
  | .dt2D2r s c dt2 d2r => .fmwDt2D2r s c dt2 d2r
  | .d1lRr s c d1l rr => .fmwD1lRr s c d1l rr
  | .unassigned => unassignedAt a v

/-- A system status byte, by its low nibble (R120, R353). -/
def decodeMidiSystem (s : Stream) (b : Byte) : Instr :=
  match (b.extractLsb' 0 4).toNat with
  | 0 => .midiSysEx s
  | 1 => .midiTimeCode s
  | 2 => .midiSongPosition s
  | 3 => .midiSongSelect s
  | 4 => .midiUndefinedF4 s
  | 5 => .midiUndefinedF5 s
  | 6 => .midiTuneRequest s
  | 7 => .midiEndOfExclusive s
  | _ => .midiRealTime s (b.extractLsb' 0 3)

/-- A byte on a MIDI stream, by its class (R120, R352). -/
def decodeMidi (s : Stream) (b : Byte) : Instr :=
  match (b.extractLsb' 4 4).toNat with
  | 0x8 => .midiNoteOff s (b.extractLsb' 0 4)
  | 0x9 => .midiNoteOn s (b.extractLsb' 0 4)
  | 0xA => .midiPolyPressure s (b.extractLsb' 0 4)
  | 0xB => .midiControlChange s (b.extractLsb' 0 4)
  | 0xC => .midiProgramChange s (b.extractLsb' 0 4)
  | 0xD => .midiChannelPressure s (b.extractLsb' 0 4)
  | 0xE => .midiPitchBend s (b.extractLsb' 0 4)
  | 0xF => decodeMidiSystem s b
  | _ => .midiData s (b.extractLsb' 0 7)

/-- How many bits an operation on a path has; `none` for the count of SAMPLE n, which has no bound (R411). -/
def Path.width : Path → Option Nat
  | .hostWrite => some 12
  | .hostRead => some 4
  | .fwWrite _ => some 8
  | .fwRead _ => some 0
  | .fmWrite => some 16
  | .midi _ => some 8
  | .sample => some 0
  | .samples => none
  | .tick => some 0
  | .fmPair => some 16
  | .flow _ => some 8
  | .midiOp _ => some 8
  | .reset => some 0

/-- The word has no bit above its path's width. -/
def Access.fits (a : Access) : Bool :=
  match a.path.width with
  | some n => decide (a.word < 2 ^ n)
  | none => true

/-- The operation a word stands for on a path, for a word that fits it. -/
def decodeWord (p : Path) (w : Nat) : Instr :=
  match p with
  | .hostWrite => decodeHostWrite (BitVec.ofNat 12 w)
  | .hostRead => decodeHostRead (BitVec.ofNat 4 w)
  | .fwWrite r => decodeFwWrite r (BitVec.ofNat 8 w)
  | .fwRead r => decodeFwRead r
  | .fmWrite => decodeFmPairRow ((BitVec.ofNat 16 w).extractLsb' 8 8) ((BitVec.ofNat 16 w).extractLsb' 0 8)
  | .midi s => decodeMidi s (BitVec.ofNat 8 w)
  | .sample => .sample
  | .samples => .samples w
  | .tick => .tick
  | .fmPair => .fmwPair ((BitVec.ofNat 16 w).extractLsb' 8 8) ((BitVec.ofNat 16 w).extractLsb' 0 8)
  | .flow s => .flow s ((BitVec.ofNat 8 w).extractLsb' 0 3)
  | .midiOp s => .midiFeed s (BitVec.ofNat 8 w)
  | .reset => .reset

/-- Decode a record. Every word that fits its path is an operation (R370, R376); one that does not is none (U9). -/
def decode (a : Access) : Except DecodeError Instr :=
  if a.fits then .ok (decodeWord a.path a.word)
  else if a.path.width = some 0 then .error (.wordOnWordlessPath a.path)
  else .error (.wordTooWide a.path)

/-- A host port write of a byte at an offset (R90). -/
def hostWriteAt (off : BitVec 4) (v : Byte) : Access :=
  ⟨.hostWrite, (off ++ v).toNat⟩

/-- A host port read at an offset (R90). -/
def hostReadAt (off : BitVec 4) : Access :=
  ⟨.hostRead, off.toNat⟩

/-- The FM pair as one word (R79). -/
def fmWriteAt (a v : Byte) : Access :=
  ⟨.fmWrite, (a ++ v).toNat⟩

/-- A byte on a MIDI stream. -/
def midiByte (s : Stream) (b : Byte) : Access :=
  ⟨.midi s, b.toNat⟩

/-- The byte of a mode word (R115). -/
def encodeModeWord (m : ModeWord) : Byte :=
  1#1 ++ m.ma ++ BitVec.ofBool m.dirA ++ BitVec.ofBool m.dirCh ++ BitVec.ofBool m.mb ++ BitVec.ofBool m.dirB
    ++ BitVec.ofBool m.dirCl

/-- The byte of a mode word of the refused row (R277). -/
def encodeBidirectional (low : BitVec 6) : Byte :=
  3#2 ++ low

/-- The byte of a port C bit set/reset command (R115), ignored bits 0. -/
def encodeBitSet (n : BitVec 3) (b : Bool) : Byte :=
  0#4 ++ n ++ BitVec.ofBool b

/-- The address of a channel register: base, then the channel (R95). -/
def channelAddress (group : BitVec 5) (c : BitVec 3) : Byte :=
  group ++ c

/-- The address of an operator register: `B + 8*s + c` (R96). -/
def operatorAddress (group : BitVec 3) (s : BitVec 2) (c : BitVec 3) : Byte :=
  group ++ s ++ c

/-- The record of an operation, ignored bits 0. -/
def encode : Instr → Access
  | .outPiuHPa v => hostWriteAt 0 v
  | .outPiuHPb v => hostWriteAt 1 v
  | .outPiuHPc v => hostWriteAt 2 v
  | .outPiuHMode m => hostWriteAt 3 (encodeModeWord m)
  | .outPiuHModeBidir low => hostWriteAt 3 (encodeBidirectional low)
  | .outPiuHBsr n b => hostWriteAt 3 (encodeBitSet n b)
  | .outPitCnt0 v => hostWriteAt 4 v
  | .outPitCnt1 v => hostWriteAt 5 v
  | .outPitCnt2 v => hostWriteAt 6 v
  | .outPitLatch sc => hostWriteAt 7 (sc ++ 0#6)
  | .outPitControl sc rw mode bcd => hostWriteAt 7 (sc ++ rw ++ mode ++ BitVec.ofBool bcd)
  | .outPitIgnored low => hostWriteAt 7 (3#2 ++ low)
  | .outNetTcr mirror v => hostWriteAt (2#2 ++ mirror) v
  | .outNetTsr mirror v => hostWriteAt (3#2 ++ mirror) v
  | .inPiuHPa => hostReadAt 0
  | .inPiuHPb => hostReadAt 1
  | .inPiuHPc => hostReadAt 2
  | .inPiuHMode => hostReadAt 3
  | .inPitCnt0 => hostReadAt 4
  | .inPitCnt1 => hostReadAt 5
  | .inPitCnt2 => hostReadAt 6
  | .inPitCmd => hostReadAt 7
  | .inNetTcr mirror => hostReadAt (2#2 ++ mirror)
  | .inNetTsr mirror => hostReadAt (3#2 ++ mirror)
  | .fwoutPa v => ⟨.fwWrite .pa, v.toNat⟩
  | .fwoutPb v => ⟨.fwWrite .pb, v.toNat⟩
  | .fwoutPc v => ⟨.fwWrite .pc, v.toNat⟩
  | .fwoutMode m => ⟨.fwWrite .mode, (encodeModeWord m).toNat⟩
  | .fwoutModeBidir low => ⟨.fwWrite .mode, (encodeBidirectional low).toNat⟩
  | .fwoutBsr n b => ⟨.fwWrite .mode, (encodeBitSet n b).toNat⟩
  | .fwoutFmSel v => ⟨.fwWrite .fmSel, v.toNat⟩
  | .fwoutFmData v => ⟨.fwWrite .fmData, v.toNat⟩
  | .fwinPa => ⟨.fwRead .pa, 0⟩
  | .fwinPb => ⟨.fwRead .pb, 0⟩
  | .fwinPc => ⟨.fwRead .pc, 0⟩
  | .fwinMode => ⟨.fwRead .mode, 0⟩
  | .fwinFmSel => ⟨.fwRead .fmSel, 0⟩
  | .fwinFmData => ⟨.fwRead .fmData, 0⟩
  | .fmwTest v => fmWriteAt 0x01 v
  | .fmwKon c m1 c1 m2 c2 =>
    fmWriteAt 0x08 (0#1 ++ BitVec.ofBool c2 ++ BitVec.ofBool m2 ++ BitVec.ofBool c1 ++ BitVec.ofBool m1 ++ c)
  | .fmwNoise ne nfrq => fmWriteAt 0x0F (BitVec.ofBool ne ++ 0#2 ++ nfrq)
  | .fmwClka1 hi => fmWriteAt 0x10 hi
  | .fmwClka2 lo => fmWriteAt 0x11 (0#6 ++ lo)
  | .fmwClkb v => fmWriteAt 0x12 v
  | .fmwTimer csm rb ra eb ea lb la =>
    fmWriteAt 0x14 (BitVec.ofBool csm ++ 0#1 ++ BitVec.ofBool rb ++ BitVec.ofBool ra ++ BitVec.ofBool eb
      ++ BitVec.ofBool ea ++ BitVec.ofBool lb ++ BitVec.ofBool la)
  | .fmwLfrq v => fmWriteAt 0x18 v
  | .fmwDepth selPmd d => fmWriteAt 0x19 (BitVec.ofBool selPmd ++ d)
  | .fmwCtW ct w => fmWriteAt 0x1B (ct ++ 0#4 ++ w)
  | .fmwRlFbCon c r l fb con =>
    fmWriteAt (channelAddress 4 c) (BitVec.ofBool r ++ BitVec.ofBool l ++ fb ++ con)
  | .fmwKc c k => fmWriteAt (channelAddress 5 c) (0#1 ++ k)
  | .fmwKf c k => fmWriteAt (channelAddress 6 c) (k ++ 0#2)
  | .fmwPmsAms c pms ams => fmWriteAt (channelAddress 7 c) (0#1 ++ pms ++ 0#2 ++ ams)
  | .fmwDt1Mul s c dt1 mul => fmWriteAt (operatorAddress 2 s c) (0#1 ++ dt1 ++ mul)
  | .fmwTl s c t => fmWriteAt (operatorAddress 3 s c) (0#1 ++ t)
  | .fmwKsAr s c ks ar => fmWriteAt (operatorAddress 4 s c) (ks ++ 0#1 ++ ar)
  | .fmwAmsD1r s c e d => fmWriteAt (operatorAddress 5 s c) (BitVec.ofBool e ++ 0#2 ++ d)
  | .fmwDt2D2r s c dt2 d2r => fmWriteAt (operatorAddress 6 s c) (dt2 ++ 0#1 ++ d2r)
  | .fmwD1lRr s c d1l rr => fmWriteAt (operatorAddress 7 s c) (d1l ++ rr)
  | .fmwUnassigned00 v => fmWriteAt 0x00 v
  | .fmwUnassigned02 v => fmWriteAt 0x02 v
  | .fmwUnassigned03 v => fmWriteAt 0x03 v
  | .fmwUnassigned04 v => fmWriteAt 0x04 v
  | .fmwUnassigned05 v => fmWriteAt 0x05 v
  | .fmwUnassigned06 v => fmWriteAt 0x06 v
  | .fmwUnassigned07 v => fmWriteAt 0x07 v
  | .fmwUnassigned09 v => fmWriteAt 0x09 v
  | .fmwUnassigned0A v => fmWriteAt 0x0A v
  | .fmwUnassigned0B v => fmWriteAt 0x0B v
  | .fmwUnassigned0C v => fmWriteAt 0x0C v
  | .fmwUnassigned0D v => fmWriteAt 0x0D v
  | .fmwUnassigned0E v => fmWriteAt 0x0E v
  | .fmwUnassigned13 v => fmWriteAt 0x13 v
  | .fmwUnassigned15 v => fmWriteAt 0x15 v
  | .fmwUnassigned16 v => fmWriteAt 0x16 v
  | .fmwUnassigned17 v => fmWriteAt 0x17 v
  | .fmwUnassigned1A v => fmWriteAt 0x1A v
  | .fmwUnassigned1C v => fmWriteAt 0x1C v
  | .fmwUnassigned1D v => fmWriteAt 0x1D v
  | .fmwUnassigned1E v => fmWriteAt 0x1E v
  | .fmwUnassigned1F v => fmWriteAt 0x1F v
  | .midiData s d => midiByte s (0#1 ++ d)
  | .midiNoteOff s ch => midiByte s (0x8#4 ++ ch)
  | .midiNoteOn s ch => midiByte s (0x9#4 ++ ch)
  | .midiPolyPressure s ch => midiByte s (0xA#4 ++ ch)
  | .midiControlChange s ch => midiByte s (0xB#4 ++ ch)
  | .midiProgramChange s ch => midiByte s (0xC#4 ++ ch)
  | .midiChannelPressure s ch => midiByte s (0xD#4 ++ ch)
  | .midiPitchBend s ch => midiByte s (0xE#4 ++ ch)
  | .midiSysEx s => midiByte s 0xF0
  | .midiTimeCode s => midiByte s 0xF1
  | .midiSongPosition s => midiByte s 0xF2
  | .midiSongSelect s => midiByte s 0xF3
  | .midiUndefinedF4 s => midiByte s 0xF4
  | .midiUndefinedF5 s => midiByte s 0xF5
  | .midiTuneRequest s => midiByte s 0xF6
  | .midiEndOfExclusive s => midiByte s 0xF7
  | .midiRealTime s rt => midiByte s (0x1F#5 ++ rt)
  | .sample => ⟨.sample, 0⟩
  | .samples n => ⟨.samples, n⟩
  | .tick => ⟨.tick, 0⟩
  | .fmwPair a v => ⟨.fmPair, (a ++ v).toNat⟩
  | .flow s m => ⟨.flow s, m.toNat⟩
  | .midiFeed s b => ⟨.midiOp s, b.toNat⟩
  | .reset => ⟨.reset, 0⟩

/-- The access path the host's numbering of a table word stands for. The table's words of different formats coincide
and carry no path, so the narrowest format that holds the word is taken, on the widths the table gives (log 2): the sample
pull for a row of no bits; a host read (4 bits), else a MIDI byte (8 bits), for a word of up to one byte; a host write (12
bits), else the FM pair (16 bits), above. -/
def tableAccess (nbits w : Nat) : Access :=
  if nbits = 0 then ⟨.sample, w⟩
  else if nbits ≤ 8 then
    if w < 16 then ⟨.hostRead, w⟩ else ⟨.midi .midiIn, w⟩
  else
    if w < 4096 then ⟨.hostWrite, w⟩ else ⟨.fmWrite, w⟩

/-- The operation the decoder reads from an instruction whose bits are `w`, numbered as spec/opcode_table.json numbers
them. -/
def decodeTableWord (nbits w : Nat) : Option Instr :=
  match decode (tableAccess nbits w) with
  | .ok i => some i
  | .error _ => none

end Sys2Proof
end

