-- ==== Sys2Proof/Machine/Bits.lean ====
section
/-! DEFINITION. The notation of spec/00_scope.md R8 that Lean does not have: arithmetic shift, clamp, one bit of a
byte. -/

namespace Sys2Proof.Machine

/-- `x >> k` on a signed integer: floor division by a power of two (R8). -/
def asr (x : Int) (k : Nat) : Int :=
  x / (2 ^ k : Nat)

/-- `clamp(x, lo, hi) = min(max(x, lo), hi)` (R8). -/
def clamp (x lo hi : Int) : Int :=
  min (max x lo) hi

/-- `v[n] <- b`. -/
def setBit (v : Byte) (n : Nat) (b : Bool) : Byte :=
  if b then v ||| (1#8 <<< n) else v &&& ~~~(1#8 <<< n)

/-- A byte from its bits, bit 7 first. -/
def byteOfBits (b7 b6 b5 b4 b3 b2 b1 b0 : Bool) : Byte :=
  BitVec.ofBool b7 ++ BitVec.ofBool b6 ++ BitVec.ofBool b5 ++ BitVec.ofBool b4
    ++ BitVec.ofBool b3 ++ BitVec.ofBool b2 ++ BitVec.ofBool b1 ++ BitVec.ofBool b0

/-- The low byte of a 16-bit quantity (R75). -/
def lowByte (x : Count) : Byte :=
  x.extractLsb' 0 8

/-- The high byte of a 16-bit quantity (R75). -/
def highByte (x : Count) : Byte :=
  x.extractLsb' 8 8

end Sys2Proof.Machine
end

