-- ==== Sys2Proof/Config.lean ====
section
/-! DEFINITION. The open parameters of spec/00_scope.md R7 for which no source gives a value, as constants with no
body: nothing can be proved of their values, so a claim holds whatever they are. The configuration fields that have
a default are the record `Params` of Sys2Proof/Machine/Params.lean, with their defaults in `params`. -/

namespace Sys2Proof.Config

/-- `DRAW()` (R10, D34): the unconstrained byte of the `n`-th undriven read. Free value, log 5. -/
opaque draw : Nat → BitVec 8

/-- The note, in semitones, of a key code whose note code is one of 3, 7, 11, 15: R155 calls these unused and gives them
no note. Free value, log 7. -/
opaque unusedNote : BitVec 7 → Int

/-- `FREQ_TAB` (R155, D6): the phase increment per sample of a tone, before detune and multiplier, indexed by its
pitch in units of 1/16 cent. OPEN, log 7. -/
opaque freqTab : Int → Nat

/-- `DT1_TAB` (R155, D6): the size of the detune for `dt1[1:0]` and a key code. OPEN, log 7. -/
opaque dt1Tab : BitVec 2 → BitVec 7 → Nat

/-- Whether half of an odd increment (MUL = 0, R155) is rounded up: R155 says "by 1/2" and no rounding. Log 7. -/
opaque halfRoundsUp : Int → Bool

/-- `LFO_NOISE_WAVE` (R174, U10): the open 256-entry byte table of LFO waveform 3. Log 9. -/
opaque lfoNoiseWave : BitVec 8 → BitVec 8

/-- `HOST_BASE` (R73): the base of the host port window in the host's I/O space; no rule uses it. Log 20. -/
opaque hostBase : Nat

/-- `FM_RATE` (R225): the real-time sample rate; no rule uses it. Log 20. -/
opaque fmRate : Nat

/-- `PIT_TICK_PERIOD` (R250): the real-time tick period; no rule uses it. Log 20. -/
opaque pitTickPeriod : Nat

end Sys2Proof.Config
end

