-- ==== Sys2Proof/Machine/Frequency.lean ====
section
/-! DEFINITION. The defaults of `KCI` and `PHASE_INC` of spec/40_fm_registers.md R155: their structure is the rule's, the
tables are the open constants of Sys2Proof/Config.lean (log 7). Another `PHASE_INC` is another value of `Params.phaseInc`. -/

namespace Sys2Proof.Machine

/-- The detune part of `PHASE_INC` as R155 describes it: none for `dt1` 0 and 4, and 5, 6, 7 the negatives of
1, 2, 3. Log 7. -/
def detune (dt1 : BitVec 3) (kc : BitVec 7) : Int :=
  if dt1.extractLsb' 0 2 = 0#2 then 0
  else if dt1.getLsbD 2 then -(Config.dt1Tab (dt1.extractLsb' 0 2) kc : Int)
  else (Config.dt1Tab (dt1.extractLsb' 0 2) kc : Int)

/-- The cents of DT2 (R155). -/
def dt2Cents (dt2 : BitVec 2) : Int :=
  match dt2.toNat with
  | 0 => 0
  | 1 => 600
  | 2 => 781
  | _ => 950

/-- The multiplier of R155: by `mul`, or by one half when `mul` = 0 with the rounding left free. Log 7. -/
def applyMul (x : Int) (mul : BitVec 4) : Int :=
  if mul = 0 then x / 2 + (if x % 2 = 1 ∧ Config.halfRoundsUp x = true then 1 else 0)
  else x * (mul.toNat : Int)

/-- The note of a key code in semitones above octave 0, note code 0 (R155): the octave is `kc[6:4]`, and the twelve note
codes `kc[3:0]` that are used are, in order, the semitones of an octave; 3, 7, 11 and 15 are unused. Log 7. -/
def semitone (kc : BitVec 7) : Int :=
  let octave := (kc.extractLsb' 4 3).toNat
  let code := (kc.extractLsb' 0 4).toNat
  if code % 4 = 3 then Config.unusedNote kc else (12 * octave + (code - code / 4) : Nat)

/-- Default `KCI(kc, kf)` (R155, R213): the key index in 1/64 semitone, the note raised by `kf`/64 semitone. Log 7. -/
def keyIndex (kc : BitVec 7) (kf : BitVec 6) : Int :=
  64 * semitone kc + (kf.toNat : Int)

/-- The pitch of a tone in 1/16 cent: the key index and the pitch modulation are in 1/64 semitone, which is 25/16 cent,
and DT2 is in cents (R155, R213, D11). Log 7. -/
def pitch (kc : BitVec 7) (kf : BitVec 6) (pm : Int) (dt2 : BitVec 2) : Int :=
  25 * (keyIndex kc kf + pm) + 16 * dt2Cents dt2

/-- Default `PHASE_INC(kc, kf, pm, dt1, dt2, mul)` (R155): the increment per sample of the 32-bit phase. Log 7. -/
def phaseInc (kc : BitVec 7) (kf : BitVec 6) (pm : Int) (dt1 : BitVec 3) (dt2 : BitVec 2) (mul : BitVec 4) :
    BitVec 32 :=
  BitVec.ofInt 32 (applyMul ((Config.freqTab (pitch kc kf pm dt2) : Int) + detune dt1 kc) mul)

end Sys2Proof.Machine
end

