-- ==== Sys2Proof/Machine/State.lean ====
section
/-! DEFINITION. The state of the block as plain data, field for field as spec/10_state.md lists it, the reasons a step
can stop, and the state after reset. The last three fields of `State` are the model's own (log 1, 4 and 5). -/

namespace Sys2Proof.Machine

/-- The envelope states, in the order OFF < RELEASE < DECAY2 < DECAY1 < ATTACK of R21. -/
inductive EgState where
  | off
  | release
  | decay2
  | decay1
  | attack
deriving DecidableEq, Repr

/-- One rate's envelope shift and row of `EG_INC` (R22: `sh_X`, `sel_X`). -/
structure EgRate where
  sh : Nat
  sel : Nat
deriving DecidableEq, Repr

/-- An operator `op[c][s]` (R21), with its derived fields `freq` and those of R22. -/
structure Operator where
  phase : BitVec 32
  freq : BitVec 32
  dt1 : BitVec 3
  mul : BitVec 4
  tl : BitVec 7
  ks : BitVec 2
  ar : BitVec 5
  amsEn : Bool
  d1r : BitVec 5
  dt2 : BitVec 2
  d2r : BitVec 5
  d1l : BitVec 4
  rr : BitVec 4
  eg : EgState
  att : Nat
  key : BitVec 2
  ksr : Nat
  tlAtt : Nat
  d1lAtt : Nat
  rateAr : EgRate
  rateD1r : EgRate
  rateD2r : EgRate
  rateRr : EgRate
deriving DecidableEq, Repr

/-- The four operator slots of a channel, in the order of R96. -/
structure Quad (α : Type) where
  m1 : α
  m2 : α
  c1 : α
  c2 : α
deriving DecidableEq, Repr

/-- Eight like things, one for each FM channel (R5). -/
structure Octet (α : Type) where
  x0 : α
  x1 : α
  x2 : α
  x3 : α
  x4 : α
  x5 : α
  x6 : α
  x7 : α
deriving DecidableEq, Repr

/-- An FM channel `ch[c]` (R23) and its four operators; `rl` bit 0 is left, bit 1 right. -/
structure Channel where
  rl : BitVec 2
  fb : BitVec 3
  con : BitVec 3
  kc : BitVec 7
  kf : BitVec 6
  pms : BitVec 3
  ams : BitVec 2
  kci : Int
  fbPrev : Int
  fbCur : Int
  mem : Int
  ops : Quad Operator
deriving DecidableEq, Repr

/-- The FM engine, chip-wide (R20, R24); `lfoTimer` and `lfoFrac` are `fm.lfo_acc` in the form of R173. -/
structure Fm where
  sel : Byte
  test : Byte
  egCnt : BitVec 32
  egDiv : Nat
  lfrq : Byte
  amd : BitVec 7
  pmd : BitVec 7
  lfoWave : BitVec 2
  ct : BitVec 2
  lfoPhase : BitVec 8
  lfoTimer : Nat
  lfoFrac : BitVec 4
  lfa : Nat
  lfp : Int
  ne : Bool
  nfrq : BitVec 5
  noiseRng : BitVec 17
  noiseAcc : BitVec 16
  ta : BitVec 10
  tb : BitVec 8
  csm : Bool
  irqenA : Bool
  irqenB : Bool
  loadA : Bool
  loadB : Bool
  taCnt : Nat
  tbCnt : Nat
  flagA : Bool
  flagB : Bool
  csmReq : Nat
  outL : Int
  outR : Int
  irq : Bool
  chans : Octet Channel
deriving DecidableEq, Repr

/-- A timer counter `pit[n]` (R30). -/
structure Counter where
  load : Count
  run : Count
  latch : Count
  latched : Bool
  rdHi : Bool
  wrHi : Bool
  rw : BitVec 2
  mode : BitVec 3
  bcd : Bool
deriving DecidableEq, Repr

/-- The interval timer (R30, R31). -/
structure Pit where
  cnt0 : Counter
  cnt1 : Counter
  cnt2 : Counter
  out0 : Bool
deriving DecidableEq, Repr

/-- A parallel interface unit (R35); a direction is `true` for an input. -/
structure Piu where
  ma : BitVec 2
  mb : Bool
  dirA : Bool
  dirB : Bool
  dirCh : Bool
  dirCl : Bool
  outA : Byte
  outB : Byte
  outC : Byte
  inA : Byte
  inB : Byte
  obfA : Bool
  obfB : Bool
  ibfA : Bool
  ibfB : Bool
  inteA : Bool
  inteB : Bool
  intrA : Bool
  intrB : Bool
  stbAIn : Bool
  stbBIn : Bool
  ackAIn : Bool
  ackBIn : Bool
deriving DecidableEq, Repr

/-- The host-facing interrupt line at the tri-state buffer's output (R40). -/
inductive HostLine where
  | low
  | high
  | z
deriving DecidableEq, Repr

/-- The interrupt composition network (R40). -/
structure Net where
  tcr : Byte
  ts : Bool
  card : Bool
  host : HostLine
  fw : Bool
  hostSeen : Bool
  fwSeen : Bool
  out0Seen : Bool
deriving DecidableEq, Repr

/-- A MIDI classifier `mpc[s]` (R45); `flow` bit 0 is the synthesis firmware, bit 1 MIDI-OUT, bit 2 the host. -/
structure Mpc where
  state : Nat
  acc : List Byte
  flow : BitVec 3
deriving DecidableEq, Repr

/-- The two interrupt lines with callbacks (R326, R371). -/
inductive Line where
  | host
  | fw
deriving DecidableEq, Repr

/-- The three routing destinations (R5, R345). -/
inductive Dest where
  | synth
  | midiOut
  | host
deriving DecidableEq, Repr

/-- What the outside observes of an operation (R10, R380). -/
inductive Event where
  /-- a byte returned by `PortRead` at an offset -/
  | portRead (off : BitVec 4) (v : Byte)
  /-- a byte returned by `FwRead` of a register -/
  | fwRead (r : FwReg) (v : Byte)
  /-- a stereo frame returned by `AdvanceSample` -/
  | frame (l r : Int)
  /-- `raise Callback(line, level)` -/
  | callback (line : Line) (level : Bool)
  /-- `Emit(dest, s, msg)`: a framed message -/
  | emit (dest : Dest) (s : Stream) (msg : List Byte)
  /-- `Emit(SYSEX_s, [b])`: a byte to the SysEx command engine of stream s -/
  | sysex (s : Stream) (b : Byte)
deriving DecidableEq, Repr

/-- The reasons of `refuse(reason)` (R10, R374). -/
inductive RefuseReason where
  /-- "PIU bidirectional mode" (R277), the one refusal of the spec -/
  | piuBidirectional
deriving DecidableEq, Repr

/-- The whole state: the five units, the refusal mark (R374), and the model's own fields: the operations still to come
(log 1), the outputs so far, oldest first (log 4), and how many `DRAW()` values were taken (log 5). -/
structure State where
  fm : Fm
  pit : Pit
  piuH : Piu
  piuF : Piu
  net : Net
  mpcMidiIn : Mpc
  mpcHost : Mpc
  mark : Option RefuseReason
  pending : List Access
  trace : List Event
  draws : Nat
deriving DecidableEq, Repr

/-- The reasons a step could fault. There are none: "No operation of the block faults" (R370). -/
inductive Fault where
deriving DecidableEq, Repr

/-- The reasons the step gives no meaning. -/
inductive Refusal where
  /-- raised by `exec` for an operation that has no meaning yet; no arm does. Safe. -/
  | notModelled (mnemonic : String)
  /-- raised by `step` for any operation but RESET while the refusal mark is set: R374 lets no claim be made of the
  block from the marked operation on. Safe: the model says nothing where the block would go on. -/
  | afterRefusal (r : RefuseReason)
  /-- raised by `step` for a record that is no operation of the block (U9). Safe. -/
  | undecodable (e : DecodeError)
deriving DecidableEq, Repr

/-- The reset counter (R30). -/
def Counter.reset : Counter :=
  { load := 0, run := 0, latch := 0, latched := false, rdHi := false, wrHi := false, rw := 3, mode := 0, bcd := false }

/-- The reset timer (R30, R31). -/
def Pit.reset : Pit :=
  { cnt0 := Counter.reset, cnt1 := Counter.reset, cnt2 := Counter.reset, out0 := true }

/-- The reset parallel interface unit (R35): basic mode, every port an input. -/
def Piu.reset : Piu :=
  { ma := 0, mb := false, dirA := true, dirB := true, dirCh := true, dirCl := true,
    outA := 0, outB := 0, outC := 0, inA := 0, inB := 0,
    obfA := false, obfB := false, ibfA := false, ibfB := false, inteA := false, inteB := false,
    intrA := false, intrB := false, stbAIn := false, stbBIn := false, ackAIn := false, ackBIn := false }

/-- The reset network (R40). -/
def Net.reset : Net :=
  { tcr := 0, ts := false, card := false, host := .z, fw := false, hostSeen := false, fwSeen := false, out0Seen := true }

/-- The reset classifier (R45). -/
def Mpc.reset : Mpc :=
  { state := 0, acc := [], flow := 1 }

/-- The reset operator (R21, R22, R391): every register 0, OFF at full attenuation, the derived fields as R155 and R156
compute them from the reset registers. -/
def Operator.reset : Operator :=
  { phase := 0, freq := phaseInc 0 0 0 0 0 0, dt1 := 0, mul := 0, tl := 0, ks := 0, ar := 0, amsEn := false,
    d1r := 0, dt2 := 0, d2r := 0, d1l := 0, rr := 0, eg := .off, att := 1023, key := 0, ksr := 0, tlAtt := 0,
    d1lAtt := 0, rateAr := ⟨0, 18⟩, rateD1r := ⟨0, 18⟩, rateD2r := ⟨0, 18⟩, rateRr := ⟨11, 2⟩ }

/-- The reset channel (R23). -/
def Channel.reset : Channel :=
  { rl := 0, fb := 0, con := 0, kc := 0, kf := 0, pms := 0, ams := 0, kci := keyIndex 0 0,
    fbPrev := 0, fbCur := 0, mem := 0,
    ops := ⟨Operator.reset, Operator.reset, Operator.reset, Operator.reset⟩ }

/-- The reset FM engine (R20, R24). -/
def Fm.reset : Fm :=
  { sel := 0, test := 0, egCnt := 0, egDiv := 0, lfrq := 0, amd := 0, pmd := 0, lfoWave := 0, ct := 0,
    lfoPhase := 0, lfoTimer := 0, lfoFrac := 0, lfa := 0, lfp := 0, ne := false, nfrq := 0, noiseRng := 0,
    noiseAcc := 0, ta := 0, tb := 0, csm := false, irqenA := false, irqenB := false, loadA := false, loadB := false,
    taCnt := 0, tbCnt := 0, flagA := false, flagB := false, csmReq := 0, outL := 0, outR := 0, irq := false,
    chans := ⟨Channel.reset, Channel.reset, Channel.reset, Channel.reset, Channel.reset, Channel.reset,
      Channel.reset, Channel.reset⟩ }

/-- The machine right after reset (R390, R391). No operation is pending, nothing was output, no value was drawn. -/
def State.reset : State :=
  { fm := Fm.reset, pit := Pit.reset, piuH := Piu.reset, piuF := Piu.reset, net := Net.reset,
    mpcMidiIn := Mpc.reset, mpcHost := Mpc.reset, mark := none, pending := [], trace := [], draws := 0 }

end Sys2Proof.Machine
end

