-- ==== Sys2Proof/Machine/Operands.lean ====
section
/-! DEFINITION. How an operation names what it acts on (spec/00_scope.md R9): `ch[c]`, `op[c][s]`, `pit[n]`, `piu[H]`
and `piu[F]` with their ports A and B, `mpc[s]`. Each piece of state is read and written through these alone. -/

namespace Sys2Proof.Machine

/-- The operator of a slot: 0 M1, 1 M2, 2 C1, 3 C2 (R96). -/
def Quad.get {α : Type} (q : Quad α) (s : BitVec 2) : α :=
  match s.toNat with
  | 0 => q.m1
  | 1 => q.m2
  | 2 => q.c1
  | _ => q.c2

/-- Replace the operator of a slot. -/
def Quad.set {α : Type} (q : Quad α) (s : BitVec 2) (x : α) : Quad α :=
  match s.toNat with
  | 0 => { q with m1 := x }
  | 1 => { q with m2 := x }
  | 2 => { q with c1 := x }
  | _ => { q with c2 := x }

/-- Apply a function to all four slots. -/
def Quad.map {α : Type} (f : α → α) (q : Quad α) : Quad α :=
  ⟨f q.m1, f q.m2, f q.c1, f q.c2⟩

/-- The thing of channel `c`. -/
def Octet.get {α : Type} (o : Octet α) (c : BitVec 3) : α :=
  match c.toNat with
  | 0 => o.x0
  | 1 => o.x1
  | 2 => o.x2
  | 3 => o.x3
  | 4 => o.x4
  | 5 => o.x5
  | 6 => o.x6
  | _ => o.x7

/-- Replace the thing of channel `c`. -/
def Octet.set {α : Type} (o : Octet α) (c : BitVec 3) (x : α) : Octet α :=
  match c.toNat with
  | 0 => { o with x0 := x }
  | 1 => { o with x1 := x }
  | 2 => { o with x2 := x }
  | 3 => { o with x3 := x }
  | 4 => { o with x4 := x }
  | 5 => { o with x5 := x }
  | 6 => { o with x6 := x }
  | _ => { o with x7 := x }

/-- Apply a function to all eight. -/
def Octet.map {α β : Type} (f : α → β) (o : Octet α) : Octet β :=
  ⟨f o.x0, f o.x1, f o.x2, f o.x3, f o.x4, f o.x5, f o.x6, f o.x7⟩

/-- The eight in channel order. -/
def Octet.toList {α : Type} (o : Octet α) : List α :=
  [o.x0, o.x1, o.x2, o.x3, o.x4, o.x5, o.x6, o.x7]

/-- `ch[c]`. -/
def Fm.chan (fm : Fm) (c : BitVec 3) : Channel :=
  fm.chans.get c

/-- `op[c][s]`. -/
def Fm.op (fm : Fm) (c : BitVec 3) (s : BitVec 2) : Operator :=
  (fm.chan c).ops.get s

/-- Change `ch[c]`. -/
def Fm.onChan (fm : Fm) (c : BitVec 3) (f : Channel → Channel) : Fm :=
  { fm with chans := fm.chans.set c (f (fm.chan c)) }

/-- Change `op[c][s]`, with its channel at hand. -/
def Fm.onOp (fm : Fm) (c : BitVec 3) (s : BitVec 2) (f : Channel → Operator → Operator) : Fm :=
  fm.onChan c fun ch => { ch with ops := ch.ops.set s (f ch (ch.ops.get s)) }

/-- Change all 32 operators, each with its channel at hand. -/
def Fm.onOps (fm : Fm) (f : Channel → Operator → Operator) : Fm :=
  { fm with chans := fm.chans.map fun ch => { ch with ops := ch.ops.map (f ch) } }

/-- The three timer counters (R30). -/
inductive CounterId where
  | cnt0
  | cnt1
  | cnt2
deriving DecidableEq, Repr

/-- The counter a command's `sc` selects; 3 selects none (R105, R241). -/
def CounterId.ofSc (sc : BitVec 2) : Option CounterId :=
  match sc.toNat with
  | 0 => some .cnt0
  | 1 => some .cnt1
  | 2 => some .cnt2
  | _ => none

/-- The host port offset of a counter, 4 + n (R90). -/
def CounterId.offset : CounterId → BitVec 4
  | .cnt0 => 4
  | .cnt1 => 5
  | .cnt2 => 6

/-- `pit[n]`. -/
def Pit.get (p : Pit) : CounterId → Counter
  | .cnt0 => p.cnt0
  | .cnt1 => p.cnt1
  | .cnt2 => p.cnt2

/-- Replace `pit[n]`. -/
def Pit.set (p : Pit) (n : CounterId) (c : Counter) : Pit :=
  match n with
  | .cnt0 => { p with cnt0 := c }
  | .cnt1 => { p with cnt1 := c }
  | .cnt2 => { p with cnt2 := c }

/-- The two parallel interface units, host-facing and firmware-facing (R9). -/
inductive PiuId where
  | h
  | f
deriving DecidableEq, Repr

/-- `P'`: the other unit. -/
def PiuId.other : PiuId → PiuId
  | .h => .f
  | .f => .h

/-- The two data ports of a unit (R35). -/
inductive Port where
  | a
  | b
deriving DecidableEq, Repr

/-- The group of a port is in strobed mode (R35: `ma` = 1, `mb` = 1). -/
def Piu.strobed (p : Piu) : Port → Bool
  | .a => p.ma == 1
  | .b => p.mb

/-- The group of a port is in basic or strobed mode (R272); `ma` 2 and 3 are bidirectional. -/
def Piu.basicOrStrobed (p : Piu) : Port → Bool
  | .a => p.ma == 0 || p.ma == 1
  | .b => true

/-- The direction of a port, `true` an input. -/
def Piu.dir (p : Piu) : Port → Bool
  | .a => p.dirA
  | .b => p.dirB

/-- The output latch of a port. -/
def Piu.out (p : Piu) : Port → Byte
  | .a => p.outA
  | .b => p.outB

/-- The input latch of a port. -/
def Piu.inp (p : Piu) : Port → Byte
  | .a => p.inA
  | .b => p.inB

/-- The output-buffer-full flag of a port. -/
def Piu.obf (p : Piu) : Port → Bool
  | .a => p.obfA
  | .b => p.obfB

/-- The input-buffer-full flag of a port. -/
def Piu.ibf (p : Piu) : Port → Bool
  | .a => p.ibfA
  | .b => p.ibfB

/-- The interrupt enable of a port. -/
def Piu.inte (p : Piu) : Port → Bool
  | .a => p.inteA
  | .b => p.inteB

/-- The interrupt request of a port. -/
def Piu.intr (p : Piu) : Port → Bool
  | .a => p.intrA
  | .b => p.intrB

/-- The last sampled strobe of a port. -/
def Piu.stbIn (p : Piu) : Port → Bool
  | .a => p.stbAIn
  | .b => p.stbBIn

/-- The last sampled acknowledge of a port. -/
def Piu.ackIn (p : Piu) : Port → Bool
  | .a => p.ackAIn
  | .b => p.ackBIn

/-- Write the output latch of a port. -/
def Piu.setOut (p : Piu) (x : Port) (v : Byte) : Piu :=
  match x with
  | .a => { p with outA := v }
  | .b => { p with outB := v }

/-- Write the input latch of a port. -/
def Piu.setInp (p : Piu) (x : Port) (v : Byte) : Piu :=
  match x with
  | .a => { p with inA := v }
  | .b => { p with inB := v }

/-- Write the output-buffer-full flag of a port. -/
def Piu.setObf (p : Piu) (x : Port) (b : Bool) : Piu :=
  match x with
  | .a => { p with obfA := b }
  | .b => { p with obfB := b }

/-- Write the input-buffer-full flag of a port. -/
def Piu.setIbf (p : Piu) (x : Port) (b : Bool) : Piu :=
  match x with
  | .a => { p with ibfA := b }
  | .b => { p with ibfB := b }

/-- Write the interrupt request of a port. -/
def Piu.setIntr (p : Piu) (x : Port) (b : Bool) : Piu :=
  match x with
  | .a => { p with intrA := b }
  | .b => { p with intrB := b }

/-- Write the last sampled strobe of a port. -/
def Piu.setStbIn (p : Piu) (x : Port) (b : Bool) : Piu :=
  match x with
  | .a => { p with stbAIn := b }
  | .b => { p with stbBIn := b }

/-- Write the last sampled acknowledge of a port. -/
def Piu.setAckIn (p : Piu) (x : Port) (b : Bool) : Piu :=
  match x with
  | .a => { p with ackAIn := b }
  | .b => { p with ackBIn := b }

/-- `piu[H]` or `piu[F]`. -/
def State.piu (s : State) : PiuId → Piu
  | .h => s.piuH
  | .f => s.piuF

/-- Replace `piu[H]` or `piu[F]`. -/
def State.setPiu (s : State) (q : PiuId) (p : Piu) : State :=
  match q with
  | .h => { s with piuH := p }
  | .f => { s with piuF := p }

/-- `mpc[s]`. -/
def State.mpc (s : State) : Stream → Mpc
  | .midiIn => s.mpcMidiIn
  | .host => s.mpcHost

/-- Replace `mpc[s]`. -/
def State.setMpc (s : State) (t : Stream) (m : Mpc) : State :=
  match t with
  | .midiIn => { s with mpcMidiIn := m }
  | .host => { s with mpcHost := m }

/-- Replace the FM engine. -/
def State.setFm (s : State) (fm : Fm) : State :=
  { s with fm := fm }

/-- Replace the timer. -/
def State.setPit (s : State) (p : Pit) : State :=
  { s with pit := p }

/-- Replace the network. -/
def State.setNet (s : State) (n : Net) : State :=
  { s with net := n }

/-- Replace the operations still to come. -/
def State.setPending (s : State) (as : List Access) : State :=
  { s with pending := as }

end Sys2Proof.Machine
end

