-- ==== Sys2Proof/Machine/FmTables.lean ====
section
/-! DEFINITION. The tables and functions of the FM engine that spec/00_scope.md R7 makes configuration fields, at the
defaults the spec gives them, which Sys2Proof/Machine/Params.lean gathers (log 8): the envelope tables (R181, R182),
`LFO_STEP` (R173), `NOISE_STEP` (R175), `KEYON_STEP` (R154) and `OPOUT` with its two tables (R197). -/

namespace Sys2Proof.Machine

/-- The rows of `EG_INC` (R181). -/
def egIncRows : List (List Nat) :=
  [[0, 1, 0, 1, 0, 1, 0, 1], [0, 1, 0, 1, 1, 1, 0, 1], [0, 1, 1, 1, 0, 1, 1, 1], [0, 1, 1, 1, 1, 1, 1, 1]]
  ++ [[1, 1, 1, 1, 1, 1, 1, 1], [1, 1, 1, 2, 1, 1, 1, 2], [1, 2, 1, 2, 1, 2, 1, 2], [1, 2, 2, 2, 1, 2, 2, 2]]
  ++ [[2, 2, 2, 2, 2, 2, 2, 2], [2, 2, 2, 4, 2, 2, 2, 4], [2, 4, 2, 4, 2, 4, 2, 4], [2, 4, 4, 4, 2, 4, 4, 4]]
  ++ [[4, 4, 4, 4, 4, 4, 4, 4], [4, 4, 4, 8, 4, 4, 4, 8], [4, 8, 4, 8, 4, 8, 4, 8], [4, 8, 8, 8, 4, 8, 8, 8]]
  ++ [[8, 8, 8, 8, 8, 8, 8, 8], [16, 16, 16, 16, 16, 16, 16, 16], [0, 0, 0, 0, 0, 0, 0, 0]]

/-- `EG_INC[row][cycle]` (R181). -/
def egInc (row cycle : Nat) : Nat :=
  (egIncRows.getD row []).getD cycle 0

/-- `EG_RATE_SELECT[r]` (R182). -/
def egRateSelect (r : Nat) : Nat :=
  if r < 32 then 18
  else if r < 80 then (r - 32) % 4
  else if r < 92 then 4 + (r - 80)
  else 16

/-- `EG_RATE_SHIFT[r]` (R182). -/
def egRateShift (r : Nat) : Nat :=
  if r < 32 then 0
  else if r < 80 then 11 - (r - 32) / 4
  else 0

/-- `KEYON_STEP` (R154): a key-on takes an attack step at once. -/
def keyonStep : Bool :=
  true

/-- `NOISE_STEP(nfrq)` (R175). -/
def noiseStep (nfrq : BitVec 5) : Nat :=
  131072 / (32 - min nfrq.toNat 30)

/-- `LFO_STEP(lfrq, phase, acc)` (R173) with the accumulator's timer and fraction. -/
def lfoStep (lfrq : Byte) (phase : BitVec 8) (timer : Nat) (frac : BitVec 4) : BitVec 8 × Nat × BitVec 4 :=
  let timer := timer + 1
  if timer ≥ 2 ^ (18 - (lfrq.extractLsb' 4 4).toNat) then
    let f := frac.toNat + 16 + (lfrq.extractLsb' 0 4).toNat
    (phase + BitVec.ofNat 8 (f / 16), 0, BitVec.ofNat 4 f)
  else (phase, timer, frac)

/-- `n(x)` of R197 for x in 0..255: the 256 steps of one octave of the exponential table. -/
def expTab : List Int :=
  [8168, 8148, 8124, 8104, 8080, 8060, 8040, 8016, 7996, 7972, 7952, 7932, 7908, 7888, 7864, 7844]
  ++ [7824, 7804, 7780, 7760, 7740, 7720, 7696, 7676, 7656, 7636, 7616, 7592, 7572, 7552, 7532, 7512]
  ++ [7492, 7472, 7452, 7432, 7412, 7392, 7372, 7352, 7332, 7312, 7292, 7272, 7252, 7232, 7212, 7192]
  ++ [7176, 7156, 7136, 7116, 7096, 7076, 7060, 7040, 7020, 7000, 6984, 6964, 6944, 6928, 6908, 6888]
  ++ [6868, 6852, 6832, 6816, 6796, 6776, 6760, 6740, 6724, 6704, 6688, 6668, 6652, 6632, 6616, 6596]
  ++ [6580, 6560, 6544, 6524, 6508, 6492, 6472, 6456, 6436, 6420, 6404, 6384, 6368, 6352, 6336, 6316]
  ++ [6300, 6284, 6264, 6248, 6232, 6216, 6200, 6180, 6164, 6148, 6132, 6116, 6100, 6080, 6064, 6048]
  ++ [6032, 6016, 6000, 5984, 5968, 5952, 5936, 5920, 5904, 5888, 5872, 5856, 5840, 5824, 5808, 5792]
  ++ [5776, 5760, 5744, 5732, 5716, 5700, 5684, 5668, 5652, 5636, 5624, 5608, 5592, 5576, 5564, 5548]
  ++ [5532, 5516, 5504, 5488, 5472, 5456, 5444, 5428, 5412, 5400, 5384, 5368, 5356, 5340, 5328, 5312]
  ++ [5296, 5284, 5268, 5256, 5240, 5228, 5212, 5200, 5184, 5168, 5156, 5144, 5128, 5116, 5100, 5088]
  ++ [5072, 5060, 5044, 5032, 5020, 5004, 4992, 4976, 4964, 4952, 4936, 4924, 4912, 4896, 4884, 4872]
  ++ [4856, 4844, 4832, 4820, 4804, 4792, 4780, 4768, 4752, 4740, 4728, 4716, 4704, 4688, 4676, 4664]
  ++ [4652, 4640, 4628, 4616, 4600, 4588, 4576, 4564, 4552, 4540, 4528, 4516, 4504, 4492, 4480, 4468]
  ++ [4456, 4444, 4432, 4420, 4408, 4396, 4384, 4372, 4360, 4348, 4336, 4324, 4312, 4300, 4288, 4276]
  ++ [4264, 4256, 4244, 4232, 4220, 4208, 4196, 4184, 4176, 4164, 4152, 4140, 4128, 4120, 4108, 4096]

/-- `round2(q)` of R197 for the first quarter wave, `k` in 0..255; the sine's symmetry gives the rest. -/
def quarterSin : List Nat :=
  [2137, 1731, 1543, 1419, 1326, 1252, 1190, 1137, 1091, 1050, 1013, 979, 949, 920, 894, 869]
  ++ [846, 825, 804, 785, 767, 749, 732, 717, 701, 687, 672, 659, 646, 633, 621, 609]
  ++ [598, 587, 576, 566, 556, 546, 536, 527, 518, 509, 501, 492, 484, 476, 468, 461]
  ++ [453, 446, 439, 432, 425, 418, 411, 405, 399, 392, 386, 380, 375, 369, 363, 358]
  ++ [352, 347, 341, 336, 331, 326, 321, 316, 311, 307, 302, 297, 293, 289, 284, 280]
  ++ [276, 271, 267, 263, 259, 255, 251, 248, 244, 240, 236, 233, 229, 226, 222, 219]
  ++ [215, 212, 209, 205, 202, 199, 196, 193, 190, 187, 184, 181, 178, 175, 172, 169]
  ++ [167, 164, 161, 159, 156, 153, 151, 148, 146, 143, 141, 138, 136, 134, 131, 129]
  ++ [127, 125, 122, 120, 118, 116, 114, 112, 110, 108, 106, 104, 102, 100, 98, 96]
  ++ [94, 92, 91, 89, 87, 85, 83, 82, 80, 78, 77, 75, 74, 72, 70, 69]
  ++ [67, 66, 64, 63, 62, 60, 59, 57, 56, 55, 53, 52, 51, 49, 48, 47]
  ++ [46, 45, 43, 42, 41, 40, 39, 38, 37, 36, 35, 34, 33, 32, 31, 30]
  ++ [29, 28, 27, 26, 25, 24, 23, 23, 22, 21, 20, 20, 19, 18, 17, 17]
  ++ [16, 15, 15, 14, 13, 13, 12, 12, 11, 10, 10, 9, 9, 8, 8, 7]
  ++ [7, 7, 6, 6, 5, 5, 5, 4, 4, 4, 3, 3, 3, 2, 2, 2]
  ++ [2, 1, 1, 1, 1, 1, 1, 1, 0, 0, 0, 0, 0, 0, 0, 0]

/-- `SIN_TAB[k]`, k in 0..1023 (R197): twice the log-sine magnitude, bit 0 the sign. -/
def sinTab (k : Nat) : Nat :=
  let h := k % 512
  2 * quarterSin.getD (if h < 256 then h else 511 - h) 0 + (if k < 512 then 0 else 1)

/-- `TL_TAB[p]`, p below 6656 (R197): octave `p / 512`, step `(p % 512) / 2`, bit 0 the sign. -/
def tlTab (p : Nat) : Int :=
  let m := expTab.getD (p % 512 / 2) 0 / (2 ^ (p / 512) : Nat)
  if p % 2 = 0 then m else -m

/-- `OPOUT(idx, env)` (R197). -/
def opOut (idx env : Nat) : Int :=
  let p := env * 8 + sinTab idx
  if p ≥ 6656 then 0 else tlTab p

end Sys2Proof.Machine
end

