-- ==== Sys2Proof/Machine/MpcTables.lean ====
section
/-! DEFINITION. The classifier's tables: what a table set is (spec/45_midi_classifier.md R340 to R345) and the default
set (R351 to R355). The operations take any table set (R347); `exec` uses the default one (log 11). -/

namespace Sys2Proof.Machine

/-- A table set (R7): `STATUS_NEXT`, `SYS_NEXT`, `DATA_NEXT`, `KEEP`, `TERM`, `SYSEX_STATES`. -/
structure MpcTables where
  statusNext : BitVec 4 → Nat
  sysNext : BitVec 4 → Nat
  dataNext : Nat → Byte → Nat
  keep : Nat → Bool
  term : Nat → Option (BitVec 3 × Nat)
  sysexState : Nat → Bool

/-- `ACC_CAP` (R6, R343). -/
def accCap : Nat :=
  3

/-- Default `STATUS_NEXT` (R352). -/
def statusNext (n : BitVec 4) : Nat :=
  match n.toNat with
  | 0x8 => 1
  | 0x9 => 4
  | 0xA => 7
  | 0xB => 10
  | 0xC => 16
  | 0xD => 18
  | 0xE => 13
  | _ => 0

/-- Default `SYS_NEXT` (R353). -/
def sysNext (n : BitVec 4) : Nat :=
  match n.toNat with
  | 0 => 20
  | 1 => 21
  | 2 => 23
  | 3 => 26
  | 4 => 29
  | 5 => 29
  | 6 => 28
  | 7 => 30
  | _ => 31

/-- Default `DATA_NEXT` for states 0 to 27; every later state goes to 0 (R354). -/
def dataNextTab : List Nat :=
  [0, 2, 3, 2, 5, 6, 5, 8, 9, 8, 11, 12, 11, 14, 15, 14] ++ [17, 17, 19, 19, 20, 22, 0, 24, 25, 0, 27, 0]

/-- Default `DATA_NEXT(q, b)` (R354): it does not depend on the byte. -/
def dataNext (q : Nat) (_b : Byte) : Nat :=
  dataNextTab.getD q 0

/-- Default `KEEP(q)` (R355): {1..19, 21..28, 31}. -/
def keepState (q : Nat) : Bool :=
  (decide (1 ≤ q) && decide (q ≤ 19)) || (decide (21 ≤ q) && decide (q ≤ 28)) || q == 31

/-- Default `TERM(q)` (R355). -/
def termState (q : Nat) : Option (BitVec 3 × Nat) :=
  if q = 3 ∨ q = 6 ∨ q = 9 ∨ q = 12 ∨ q = 15 ∨ q = 25 then some (7, 3)
  else if q = 17 ∨ q = 19 ∨ q = 22 ∨ q = 27 then some (7, 2)
  else if q = 28 ∨ q = 31 then some (7, 1)
  else none

/-- The default table set (R351 to R355). -/
def mpcTables : MpcTables where
  statusNext := statusNext
  sysNext := sysNext
  dataNext := dataNext
  keep := keepState
  term := termState
  sysexState q := q == 20

end Sys2Proof.Machine
end

