-- ==== Sys2Proof/Machine/Params.lean ====
section
/-! DEFINITION. The configuration fields of spec/00_scope.md R7 that have a default, as one record: every operation whose
effect depends on one takes the record as an argument, and `execWith` (Sys2Proof/Machine/ExecWith.lean) is the machine
for any of them. `params` holds the defaults; the meanings that `exec` calls run on it (log 7, 8, 10, 11). The fields
for which no source gives a value are the constants without a body of Sys2Proof/Config.lean. -/

namespace Sys2Proof.Machine

/-- A value of `PIT_TICK_MODE` (R249): from counter 0 and the output level to the new running count and the levels the
output line takes, in order. -/
abbrev TickMode := Counter → Bool → Count × List Bool

/-- PULSE (R247), the default: a low-then-high pulse and a reload when the count reaches 0. -/
def tickPulse : TickMode := fun c _ =>
  if c.run - 1 = 0 then (c.load, [false, true]) else (c.run - 1, [])

/-- SQUARE (R249): the output inverts and the count is reloaded when it reaches 0. -/
def tickSquare : TickMode := fun c out0 =>
  if c.run - 1 = 0 then (c.load, [!out0]) else (c.run - 1, [])

/-- `PIT_TICK_MODE` at its default (R247, D16, log 10). -/
def pitTickMode : TickMode :=
  tickPulse

/-- A value of each configuration field of R7 that an operation of the block uses and that has a default: total functions
of the operands the rule gives them. `lfoStep` takes `acc` in its two parts (R173), `tables` is the table set of a
classifier (R347). -/
structure Params where
  /-- `KCI(kc, kf)` (R155) -/
  kci : BitVec 7 → BitVec 6 → Int
  /-- `PHASE_INC(kc, kf, pm, dt1, dt2, mul)` (R155) -/
  phaseInc : BitVec 7 → BitVec 6 → Int → BitVec 3 → BitVec 2 → BitVec 4 → BitVec 32
  /-- `OPOUT(idx, env)` (R197) -/
  opOut : Nat → Nat → Int
  /-- `KEYON_STEP` (R154) -/
  keyonStep : Bool
  /-- `EG_INC` (R181) -/
  egInc : Nat → Nat → Nat
  /-- `EG_RATE_SELECT` (R182) -/
  egRateSelect : Nat → Nat
  /-- `EG_RATE_SHIFT` (R182) -/
  egRateShift : Nat → Nat
  /-- `LFO_STEP(lfrq, phase, acc)` (R173) -/
  lfoStep : Byte → BitVec 8 → Nat → BitVec 4 → BitVec 8 × Nat × BitVec 4
  /-- `NOISE_STEP(nfrq)` (R175) -/
  noiseStep : BitVec 5 → Nat
  /-- `PIT_TICK_MODE` (R249) -/
  tickMode : TickMode
  /-- `STATUS_NEXT`, `SYS_NEXT`, `DATA_NEXT`, `KEEP`, `TERM`, `SYSEX_STATES` (R347) -/
  tables : MpcTables

/-- Every field at the default the spec gives it (R7): what this machine runs on. Log 7, 8, 10, 11. -/
def params : Params :=
  { kci := keyIndex
    phaseInc := Sys2Proof.Machine.phaseInc
    opOut := Sys2Proof.Machine.opOut
    keyonStep := Sys2Proof.Machine.keyonStep
    egInc := Sys2Proof.Machine.egInc
    egRateSelect := Sys2Proof.Machine.egRateSelect
    egRateShift := Sys2Proof.Machine.egRateShift
    lfoStep := Sys2Proof.Machine.lfoStep
    noiseStep := Sys2Proof.Machine.noiseStep
    tickMode := pitTickMode
    tables := mpcTables }

end Sys2Proof.Machine
end

