-- ==== Sys2Proof/Machine/Flags.lean ====
section
/-! DEFINITION. Every flag, level, derived field and status byte the spec computes from other state: the derived FM
fields (spec/40_fm_registers.md R155, R156), the FM request and status (R222, R93), the handshake signals and interrupt
requests of the parallel interface (spec/43_piu.md R271, R291), port C (R116, R117), and the network's levels and status
byte (spec/44_interrupt_network.md R322 to R325, R113). -/

namespace Sys2Proof.Machine

/-! ### Derived FM fields -/

/-- `op[c][s].freq` as R155 computes it from its channel and its own registers. -/
def freqOf (P : Params) (ch : Channel) (o : Operator) : BitVec 32 :=
  P.phaseInc ch.kc ch.kf 0 o.dt1 o.dt2 o.mul

/-- `base(r5)` of R156. -/
def rateBase (r : BitVec 5) : Nat :=
  if r = 0 then 0 else 32 + 2 * r.toNat

/-- `ksr` of R156: `kc >> (5 - ks)`. -/
def ksrOf (kc : BitVec 7) (ks : BitVec 2) : Nat :=
  kc.toNat / 2 ^ (5 - ks.toNat)

/-- `tl_att` of R156. -/
def tlAttOf (tl : BitVec 7) : Nat :=
  tl.toNat * 8

/-- `d1l_att` of R156. -/
def d1lAttOf (d1l : BitVec 4) : Nat :=
  if d1l = 15 then 992 else 32 * d1l.toNat

/-- The shift and row of a decay or release rate index (R156). -/
def slowRate (P : Params) (r : Nat) : EgRate :=
  ⟨P.egRateShift r, P.egRateSelect r⟩

/-- The shift and row of an attack rate index: instant from 94 on (R156). -/
def attackRate (P : Params) (r : Nat) : EgRate :=
  if r < 94 then slowRate P r else ⟨0, 17⟩

/-- The envelope recomputation of R156 for an operator of a channel with key code `kc`. -/
def Operator.refreshEnvelope (P : Params) (kc : BitVec 7) (o : Operator) : Operator :=
  let ksr := ksrOf kc o.ks
  { o with
    ksr := ksr
    tlAtt := tlAttOf o.tl
    d1lAtt := d1lAttOf o.d1l
    rateAr := attackRate P (rateBase o.ar + ksr)
    rateD1r := slowRate P (rateBase o.d1r + ksr)
    rateD2r := slowRate P (rateBase o.d2r + ksr)
    rateRr := slowRate P (34 + 4 * o.rr.toNat + ksr) }

/-- The frequency recomputation of R155 for one operator of a channel. -/
def Operator.refreshFreq (P : Params) (ch : Channel) (o : Operator) : Operator :=
  { o with freq := freqOf P ch o }

/-- The frequency recomputation of R155 for a channel: `kci` and the four `freq`. -/
def Channel.refreshFreq (P : Params) (ch : Channel) : Channel :=
  { ch with kci := P.kci ch.kc ch.kf, ops := ch.ops.map (Operator.refreshFreq P ch) }

/-- The envelope recomputation of R156 for the four operators of a channel (R144). -/
def Channel.refreshEnvelope (P : Params) (ch : Channel) : Channel :=
  { ch with ops := ch.ops.map (Operator.refreshEnvelope P ch.kc) }

/-! ### The FM request and status -/

/-- `fm.irq <- fm.flag_a | fm.flag_b` (R222). -/
def Fm.refreshIrq (fm : Fm) : Fm :=
  { fm with irq := fm.flagA || fm.flagB }

/-- The FM status byte (R93); bit 7, busy, is always 0. -/
def Fm.status (fm : Fm) : Byte :=
  byteOfBits false false false false false false fm.flagB fm.flagA

/-! ### The parallel interface -/

/-- `SA(P, out)`, `SB(P, out)` of R271. -/
def Piu.strobedOut (p : Piu) (x : Port) : Bool :=
  p.strobed x && !p.dir x

/-- `SA(P, in)`, `SB(P, in)` of R271. -/
def Piu.strobedIn (p : Piu) (x : Port) : Bool :=
  p.strobed x && p.dir x

/-- Both ends of a port are in the matching strobed modes: port A from H to F, port B from F to H (R270, R271). -/
def linkActive (h f : Piu) : Port → Bool
  | .a => h.strobedOut .a && f.strobedIn .a
  | .b => f.strobedOut .b && h.strobedIn .b

/-- The strobe into port X of a unit (R271): the counterpart's output-buffer-full flag. -/
def strobe (h f : Piu) (q : PiuId) (x : Port) : Bool :=
  match q, x with
  | .f, .a => linkActive h f .a && h.obfA
  | .h, .b => linkActive h f .b && f.obfB
  | .h, .a => false
  | .f, .b => false

/-- The acknowledge into port X of a unit (R271): the counterpart's input-buffer-full flag. -/
def acknowledge (h f : Piu) (q : PiuId) (x : Port) : Bool :=
  match q, x with
  | .h, .a => linkActive h f .a && f.ibfA
  | .f, .b => linkActive h f .b && h.ibfB
  | .h, .b => false
  | .f, .a => false

/-- The interrupt request of port X of a unit `p` that is `q` of the pair (R291). -/
def intrOf (h f : Piu) (q : PiuId) (p : Piu) (x : Port) : Bool :=
  if p.strobed x then
    if p.dir x then p.inte x && p.ibf x && !strobe h f q x
    else p.inte x && !p.obf x && !acknowledge h f q x
  else false

/-- `TAKEN(P, n)`: bit n of port C is a handshake bit of a strobed group (R278, R116). -/
def Piu.taken (p : Piu) (n : Nat) : Bool :=
  (p.strobedOut .a && (n == 3 || n == 6 || n == 7))
    || (p.strobedIn .a && (n == 3 || n == 4 || n == 5))
    || (p.mb && (n == 0 || n == 1 || n == 2))

/-- Bit n is the interrupt-enable bit of group A (R116, R278). -/
def Piu.isInteA (p : Piu) (n : Nat) : Bool :=
  (p.strobedOut .a && n == 6) || (p.strobedIn .a && n == 4)

/-- Bit n is the interrupt-enable bit of group B (R116, R278). -/
def Piu.isInteB (p : Piu) (n : Nat) : Bool :=
  p.mb && n == 2

/-- The status value of a taken bit of port C (R117). -/
def Piu.statusBit (p : Piu) (n : Nat) : Bool :=
  match n with
  | 7 => !p.obfA
  | 6 => p.inteA
  | 5 => p.ibfA
  | 4 => p.inteA
  | 3 => p.intrA
  | 2 => p.inteB
  | 1 => if p.dirB then p.ibfB else !p.obfB
  | _ => p.intrB

/-- The direction of the nibble of bit n of port C, `true` an input (R283). -/
def Piu.dirC (p : Piu) (n : Nat) : Bool :=
  if n < 4 then p.dirCl else p.dirCh

/-- Bit n of a read of port C, with `d` the drawn byte that undriven bits take (R117, R283). -/
def Piu.portCBit (p : Piu) (d : Byte) (n : Nat) : Bool :=
  if p.taken n then p.statusBit n
  else if p.dirC n then d.getLsbD n
  else p.outC.getLsbD n

/-- A read of port C (R117, R283). -/
def Piu.portC (p : Piu) (d : Byte) : Byte :=
  byteOfBits (p.portCBit d 7) (p.portCBit d 6) (p.portCBit d 5) (p.portCBit d 4)
    (p.portCBit d 3) (p.portCBit d 2) (p.portCBit d 1) (p.portCBit d 0)

/-! ### The network -/

/-- The fields of TCR (R112). -/
def Net.te (n : Net) : Bool := n.tcr.getLsbD 0
/-- TC, timer status clear (R112). -/
def Net.tc (n : Net) : Bool := n.tcr.getLsbD 1
/-- OE, host interrupt output enable (R112). -/
def Net.oe (n : Net) : Bool := n.tcr.getLsbD 6
/-- IE, host interrupt mask enable (R112). -/
def Net.ie (n : Net) : Bool := n.tcr.getLsbD 7

/-- `TS_UPDATE()` (R322): the timer status flip-flop, cleared by TC, else set by a rising edge while TE = 1. -/
def Net.tsUpdate (n : Net) (out0 : Bool) : Net :=
  { n with
    out0Seen := out0
    ts := if n.tc then false else if !n.out0Seen && out0 && n.te then true else n.ts }

/-- The card status (R323). -/
def cardStatus (n : Net) (h : Piu) : Bool :=
  n.ts || h.intrA || h.intrB

/-- The host-facing line (R324). -/
def hostLine (n : Net) (card : Bool) : HostLine :=
  if n.oe then (if card && n.ie then .high else .low) else .z

/-- The network's levels recomputed, without the reports (R320, R322 to R325). -/
def Net.refresh (n : Net) (out0 : Bool) (h f : Piu) : Net :=
  let n1 := n.tsUpdate out0
  let card := cardStatus n1 h
  { n1 with card := card, host := hostLine n1 card, fw := f.intrA || f.intrB }

/-- The network status register TSR (R113, R316). -/
def tsr (n : Net) (h : Piu) : Byte :=
  byteOfBits (n.host == .high) false false false n.card h.intrB h.intrA n.ts

end Sys2Proof.Machine
end

