-- ==== Sys2Proof/Machine/Ops.lean ====
section
/-! DEFINITION. The operations every unit shares (spec/00_scope.md R10): output events, draws, the refusal, the network's
recomputation `NET_UPDATE` (spec/44_interrupt_network.md R320) and the handshake propagation `PIU_UPDATE`
(spec/43_piu.md R290). The block takes no exception (R370): its interrupts are levels and callbacks. -/

namespace Sys2Proof.Machine

/-- An output event of the operation (R10, R380). -/
def State.output (s : State) (e : Event) : State :=
  { s with trace := s.trace ++ [e] }

/-- The byte the next `DRAW()` gives (R10): a free value. Log 5. -/
def State.drawn (s : State) : Byte :=
  Config.draw s.draws

/-- A `DRAW()` is taken: the next one is another free value. Log 5. -/
def State.takeDraw (s : State) : State :=
  { s with draws := s.draws + 1 }

/-- `refuse(reason)` (R10, R374): the refusal mark is set and nothing else changes. -/
def State.refuse (s : State) (r : RefuseReason) : State :=
  { s with mark := some r }

/-- The last level reported to a line's callback (R326). -/
def Net.seen (n : Net) : Line → Bool
  | .host => n.hostSeen
  | .fw => n.fwSeen

/-- Remember the level reported to a line's callback (R326). -/
def Net.setSeen (n : Net) (l : Line) (b : Bool) : Net :=
  match l with
  | .host => { n with hostSeen := b }
  | .fw => { n with fwSeen := b }

/-- `REPORT(line, level)` (R326): a callback on a transition, and only then. -/
def State.report (s : State) (l : Line) (level : Bool) : State :=
  if level = s.net.seen l then s
  else (s.setNet (s.net.setSeen l level)).output (.callback l level)

/-- `NET_UPDATE()` (R320): the levels, then the reports, HOST before FW. -/
def State.netUpdate (s : State) : State :=
  let s1 := s.setNet (s.net.refresh s.pit.out0 s.piuH s.piuF)
  (s1.report .host (s1.net.host == .high)).report .fw s1.net.fw

/-- An edge of the strobe into port X of the receiver `q` from the sender `p'` (R290): the level is stored, and a rising
strobe latches the sender's byte and fills the input buffer. -/
def Piu.strobeEdge (q p' : Piu) (x : Port) (level : Bool) : Piu :=
  let q1 := q.setStbIn x level
  if level then (q1.setInp x (p'.out x)).setIbf x true else q1

/-- An edge of the acknowledge into port X of the sender `q` (R290): the level is stored, and a rising acknowledge
empties the output buffer. -/
def Piu.ackEdge (q : Piu) (x : Port) (level : Bool) : Piu :=
  let q1 := q.setAckIn x level
  if level then q1.setObf x false else q1

/-- One turn of the loop of R290: the first of the four signals, in the rule's order, that differs from its last sample
is stored with its edge action; `none` when none differs. -/
def handshakeStep (h f : Piu) : Option (Piu × Piu) :=
  if strobe h f .f .a ≠ f.stbIn .a then some (h, f.strobeEdge h .a (strobe h f .f .a))
  else if acknowledge h f .h .a ≠ h.ackIn .a then some (h.ackEdge .a (acknowledge h f .h .a), f)
  else if strobe h f .h .b ≠ h.stbIn .b then some (h.strobeEdge f .b (strobe h f .h .b), f)
  else if acknowledge h f .f .b ≠ f.ackIn .b then some (h, f.ackEdge .b (acknowledge h f .f .b))
  else none

/-- The loop of R290. Its bound is never met: "per port at most three signal changes follow one operation", so six
turns are enough and `handshakeTurns` gives eight. -/
def settleHandshake : Nat → Piu → Piu → Piu × Piu
  | 0, h, f => (h, f)
  | n + 1, h, f =>
    match handshakeStep h f with
    | some (h1, f1) => settleHandshake n h1 f1
    | none => (h, f)

/-- The turns given to the loop of R290. -/
def handshakeTurns : Nat :=
  8

/-- The interrupt requests of both ports of a unit recomputed (R290, R291). -/
def Piu.refreshIntr (p h f : Piu) (q : PiuId) : Piu :=
  (p.setIntr .a (intrOf h f q p .a)).setIntr .b (intrOf h f q p .b)

/-- The parallel interface part of `PIU_UPDATE()` (R290): the fixed point, then the requests. -/
def piuSettle (h f : Piu) : Piu × Piu :=
  let (h1, f1) := settleHandshake handshakeTurns h f
  (h1.refreshIntr h1 f1 .h, f1.refreshIntr h1 f1 .f)

/-- `PIU_UPDATE()` (R290). -/
def State.piuUpdate (s : State) : State :=
  let r := piuSettle s.piuH s.piuF
  ((s.setPiu .h r.1).setPiu .f r.2).netUpdate

end Sys2Proof.Machine
end

