-- ==== Sys2Proof/Machine/FmRegisters.lean ====
section
/-! DEFINITION. The FM engine's register interface, spec/40_fm_registers.md: the key-on and key-off procedures, one write
operation for each register rule, the select, data and status registers, and the meanings of the rows FWOUT FM_SEL,
FWOUT FM_DATA, FWIN FM_SEL, FWIN FM_DATA, FMW and the FwFmWrite pair. -/

namespace Sys2Proof.Machine

/-! ### Key-on and key-off (R154, R157) -/

/-- `inc(o, X)` of R183, for one rate of an operator. -/
def EgRate.inc (P : Params) (r : EgRate) (egCnt : BitVec 32) : Nat :=
  P.egInc r.sel (egCnt.toNat / 2 ^ r.sh % 8)

/-- The level an attack step gives, before its test against 0 (R154, R185). -/
def attackLevel (att inc : Nat) : Int :=
  (att : Int) + asr ((-(att : Int) - 1) * (inc : Int)) 4

/-- The end of an attack step (R154, R185): at or below 0 the level is 0 and the state DECAY1. -/
def Operator.landAttack (o : Operator) (a : Int) : Operator :=
  if a ≤ 0 then { o with att := 0, eg := .decay1 } else { o with att := a.toNat }

/-- The start of a note in `KEY_ON` (R154): the phase is reset, the state is ATTACK, and `KEYON_STEP` takes one attack
step at once. -/
def Operator.startNote (P : Params) (egCnt : BitVec 32) (o : Operator) : Operator :=
  let o1 := { o with phase := 0, eg := .attack }
  if P.keyonStep then o1.landAttack (attackLevel o1.att (o1.rateAr.inc P egCnt)) else o1

/-- `KEY_ON(o, src)` (R154). -/
def Operator.keyOn (P : Params) (egCnt : BitVec 32) (src : BitVec 2) (o : Operator) : Operator :=
  let o1 := if o.key = 0 then o.startNote P egCnt else o
  { o1 with key := o1.key ||| src }

/-- The envelope state is above RELEASE in the order of R21. -/
def EgState.aboveRelease : EgState → Bool
  | .off => false
  | .release => false
  | .decay2 => true
  | .decay1 => true
  | .attack => true

/-- `KEY_OFF(o, src)` (R157). -/
def Operator.keyOff (src : BitVec 2) (o : Operator) : Operator :=
  if o.key = 0 then o
  else
    let k := o.key &&& ~~~src
    if k = 0 ∧ o.eg.aboveRelease = true then { o with key := k, eg := .release } else { o with key := k }

/-- One slot of a KON write (R134): key-on or key-off by source 0b01. -/
def Operator.gate (P : Params) (egCnt : BitVec 32) (on : Bool) (o : Operator) : Operator :=
  if on then o.keyOn P egCnt 1 else o.keyOff 1

/-! ### The register writes (R130 to R153) -/

/-- FM_SEL (R130). -/
def Fm.select (fm : Fm) (a : Byte) : Fm :=
  { fm with sel := a }

/-- TEST (R133). -/
def Fm.writeTest (fm : Fm) (v : Byte) : Fm :=
  { fm with test := v, lfoPhase := if v.getLsbD 1 then 0 else fm.lfoPhase }

/-- KON (R134). -/
def Fm.writeKon (P : Params) (fm : Fm) (c : BitVec 3) (m1 c1 m2 c2 : Bool) : Fm :=
  fm.onChan c fun ch =>
    { ch with
      ops := ⟨ch.ops.m1.gate P fm.egCnt m1, ch.ops.m2.gate P fm.egCnt m2, ch.ops.c1.gate P fm.egCnt c1,
        ch.ops.c2.gate P fm.egCnt c2⟩ }

/-- NOISE (R135). -/
def Fm.writeNoise (fm : Fm) (ne : Bool) (nfrq : BitVec 5) : Fm :=
  { fm with ne := ne, nfrq := nfrq }

/-- CLKA1 (R136): TA[9:2]. -/
def Fm.writeClka1 (fm : Fm) (hi : Byte) : Fm :=
  { fm with ta := hi ++ fm.ta.extractLsb' 0 2 }

/-- CLKA2 (R137): TA[1:0]. -/
def Fm.writeClka2 (fm : Fm) (lo : BitVec 2) : Fm :=
  { fm with ta := fm.ta.extractLsb' 2 8 ++ lo }

/-- CLKB (R138). -/
def Fm.writeClkb (fm : Fm) (v : Byte) : Fm :=
  { fm with tb := v }

/-- The reload value of timer A (R139, R220). -/
def Fm.taPeriod (fm : Fm) : Nat :=
  1024 - fm.ta.toNat

/-- The reload value of timer B (R139, R221). -/
def Fm.tbPeriod (fm : Fm) : Nat :=
  16 * (256 - fm.tb.toNat)

/-- TIMER (R139). -/
def Fm.writeTimer (fm : Fm) (csm resetB resetA irqenB irqenA loadB loadA : Bool) : Fm :=
  Fm.refreshIrq
    { fm with
      csm := csm
      flagB := fm.flagB && !resetB
      flagA := fm.flagA && !resetA
      irqenB := irqenB
      irqenA := irqenA
      tbCnt := if loadB && !fm.loadB then fm.tbPeriod else fm.tbCnt
      taCnt := if loadA && !fm.loadA then fm.taPeriod else fm.taCnt
      loadB := loadB
      loadA := loadA }

/-- LFRQ (R140). -/
def Fm.writeLfrq (fm : Fm) (v : Byte) : Fm :=
  { fm with lfrq := v }

/-- PMD/AMD (R141): one of the two depths. -/
def Fm.writeDepth (fm : Fm) (selPmd : Bool) (d : BitVec 7) : Fm :=
  if selPmd then { fm with pmd := d } else { fm with amd := d }

/-- CT/W (R142). -/
def Fm.writeCtW (fm : Fm) (ct w : BitVec 2) : Fm :=
  { fm with ct := ct, lfoWave := w }

/-- RL/FB/CON (R143): `rl` is right over left. -/
def Fm.writeRlFbCon (fm : Fm) (c : BitVec 3) (r l : Bool) (fb con : BitVec 3) : Fm :=
  fm.onChan c fun ch => { ch with rl := BitVec.ofBool r ++ BitVec.ofBool l, fb := fb, con := con }

/-- KC (R144): then R155 for the channel and R156 for its four operators. -/
def Fm.writeKc (P : Params) (fm : Fm) (c : BitVec 3) (kc : BitVec 7) : Fm :=
  fm.onChan c fun ch => Channel.refreshEnvelope P (Channel.refreshFreq P { ch with kc := kc })

/-- KF (R145): then R155 for the channel. -/
def Fm.writeKf (P : Params) (fm : Fm) (c : BitVec 3) (kf : BitVec 6) : Fm :=
  fm.onChan c fun ch => Channel.refreshFreq P { ch with kf := kf }

/-- PMS/AMS (R146). -/
def Fm.writePmsAms (fm : Fm) (c : BitVec 3) (pms : BitVec 3) (ams : BitVec 2) : Fm :=
  fm.onChan c fun ch => { ch with pms := pms, ams := ams }

/-- DT1/MUL (R147): then the operator's frequency by R155. -/
def Fm.writeDt1Mul (P : Params) (fm : Fm) (s : BitVec 2) (c : BitVec 3) (dt1 : BitVec 3) (mul : BitVec 4) : Fm :=
  fm.onOp c s fun ch o => Operator.refreshFreq P ch { o with dt1 := dt1, mul := mul }

/-- TL (R148): then `tl_att` by R156. -/
def Fm.writeTl (fm : Fm) (s : BitVec 2) (c : BitVec 3) (tl : BitVec 7) : Fm :=
  fm.onOp c s fun _ o => { o with tl := tl, tlAtt := tlAttOf tl }

/-- KS/AR (R149): then R156. -/
def Fm.writeKsAr (P : Params) (fm : Fm) (s : BitVec 2) (c : BitVec 3) (ks : BitVec 2) (ar : BitVec 5) : Fm :=
  fm.onOp c s fun ch o => Operator.refreshEnvelope P ch.kc { o with ks := ks, ar := ar }

/-- AMSEN/D1R (R150): then R156. -/
def Fm.writeAmsD1r (P : Params) (fm : Fm) (s : BitVec 2) (c : BitVec 3) (amsEn : Bool) (d1r : BitVec 5) : Fm :=
  fm.onOp c s fun ch o => Operator.refreshEnvelope P ch.kc { o with amsEn := amsEn, d1r := d1r }

/-- DT2/D2R (R151): then the operator's frequency by R155, and R156. -/
def Fm.writeDt2D2r (P : Params) (fm : Fm) (s : BitVec 2) (c : BitVec 3) (dt2 : BitVec 2) (d2r : BitVec 5) : Fm :=
  fm.onOp c s fun ch o =>
    Operator.refreshEnvelope P ch.kc (Operator.refreshFreq P ch { o with dt2 := dt2, d2r := d2r })

/-- D1L/RR (R152): then R156. -/
def Fm.writeD1lRr (P : Params) (fm : Fm) (s : BitVec 2) (c : BitVec 3) (d1l rr : BitVec 4) : Fm :=
  fm.onOp c s fun ch o => Operator.refreshEnvelope P ch.kc { o with d1l := d1l, rr := rr }

/-- `FmWrite(addr, v)` (R10, R131) on the decoded write; an unassigned address changes nothing (R153). -/
def Fm.write (P : Params) (fm : Fm) : FmReg → Fm
  | .test v => fm.writeTest v
  | .kon c m1 c1 m2 c2 => fm.writeKon P c m1 c1 m2 c2
  | .noise ne nfrq => fm.writeNoise ne nfrq
  | .clka1 hi => fm.writeClka1 hi
  | .clka2 lo => fm.writeClka2 lo
  | .clkb v => fm.writeClkb v
  | .timer csm rb ra eb ea lb la => fm.writeTimer csm rb ra eb ea lb la
  | .lfrq v => fm.writeLfrq v
  | .depth selPmd d => fm.writeDepth selPmd d
  | .ctW ct w => fm.writeCtW ct w
  | .rlFbCon c r l fb con => fm.writeRlFbCon c r l fb con
  | .kc c k => fm.writeKc P c k
  | .kf c k => fm.writeKf P c k
  | .pmsAms c pms ams => fm.writePmsAms c pms ams
  | .dt1Mul s c dt1 mul => fm.writeDt1Mul P s c dt1 mul
  | .tl s c t => fm.writeTl s c t
  | .ksAr s c ks ar => fm.writeKsAr P s c ks ar
  | .amsD1r s c e d => fm.writeAmsD1r P s c e d
  | .dt2D2r s c dt2 d2r => fm.writeDt2D2r P s c dt2 d2r
  | .d1lRr s c d1l rr => fm.writeD1lRr P s c d1l rr
  | .unassigned => fm

/-- A machine outcome. -/
abbrev Result := Host.Outcome State Fault Refusal

/-! ### FM_SEL and FM_DATA (R130 to R132) -/

/-- FWOUT FM_SEL (R130). -/
def execFwoutFmSel (v : Byte) (s : State) : Result :=
  .next (s.setFm (s.fm.select v))

/-- FWOUT FM_DATA (R131): a write to the register FM_SEL names, which stays selected. -/
def execFwoutFmData (v : Byte) (s : State) : Result :=
  .next (s.setFm (s.fm.write params (decodeFm s.fm.sel v)))

/-- FWIN FM_SEL (R92, R132): write-only, any byte. -/
def execFwinFmSel (s : State) : Result :=
  .next (s.takeDraw.output (.fwRead .fmSel s.drawn))

/-- FWIN FM_DATA (R132): the FM status byte. -/
def execFwinFmData (s : State) : Result :=
  .next (s.output (.fwRead .fmData s.fm.status))

/-! ### The FM pair (R79) and its rows for each register

A row is `FwFmWrite(a, v)`: the select write of R130, then the data write of R131 (R79, R122, log 3). -/

/-- FwFmWrite at any address (R79). -/
def execFmwPair (a v : Byte) (s : State) : Result :=
  .next (s.setFm ((s.fm.select a).write params (decodeFm a v)))

/-- FMW TEST (R133). -/
def execFmwTest (v : Byte) (s : State) : Result :=
  .next (s.setFm ((s.fm.select 0x01).writeTest v))

/-- FMW KON (R134). -/
def execFmwKon (c : BitVec 3) (m1 c1 m2 c2 : Bool) (s : State) : Result :=
  .next (s.setFm ((s.fm.select 0x08).writeKon params c m1 c1 m2 c2))

/-- FMW NOISE (R135). -/
def execFmwNoise (ne : Bool) (nfrq : BitVec 5) (s : State) : Result :=
  .next (s.setFm ((s.fm.select 0x0F).writeNoise ne nfrq))

/-- FMW CLKA1 (R136). -/
def execFmwClka1 (hi : Byte) (s : State) : Result :=
  .next (s.setFm ((s.fm.select 0x10).writeClka1 hi))

/-- FMW CLKA2 (R137). -/
def execFmwClka2 (lo : BitVec 2) (s : State) : Result :=
  .next (s.setFm ((s.fm.select 0x11).writeClka2 lo))

/-- FMW CLKB (R138). -/
def execFmwClkb (v : Byte) (s : State) : Result :=
  .next (s.setFm ((s.fm.select 0x12).writeClkb v))

/-- FMW TIMER (R139). -/
def execFmwTimer (csm resetB resetA irqenB irqenA loadB loadA : Bool) (s : State) : Result :=
  .next (s.setFm ((s.fm.select 0x14).writeTimer csm resetB resetA irqenB irqenA loadB loadA))

/-- FMW LFRQ (R140). -/
def execFmwLfrq (v : Byte) (s : State) : Result :=
  .next (s.setFm ((s.fm.select 0x18).writeLfrq v))

/-- FMW PMD/AMD (R141). -/
def execFmwDepth (selPmd : Bool) (d : BitVec 7) (s : State) : Result :=
  .next (s.setFm ((s.fm.select 0x19).writeDepth selPmd d))

/-- FMW CT/W (R142). -/
def execFmwCtW (ct w : BitVec 2) (s : State) : Result :=
  .next (s.setFm ((s.fm.select 0x1B).writeCtW ct w))

/-- FMW RL/FB/CON (R143). -/
def execFmwRlFbCon (c : BitVec 3) (r l : Bool) (fb con : BitVec 3) (s : State) : Result :=
  .next (s.setFm ((s.fm.select (channelAddress 4 c)).writeRlFbCon c r l fb con))

/-- FMW KC (R144). -/
def execFmwKc (c : BitVec 3) (kc : BitVec 7) (s : State) : Result :=
  .next (s.setFm ((s.fm.select (channelAddress 5 c)).writeKc params c kc))

/-- FMW KF (R145). -/
def execFmwKf (c : BitVec 3) (kf : BitVec 6) (s : State) : Result :=
  .next (s.setFm ((s.fm.select (channelAddress 6 c)).writeKf params c kf))

/-- FMW PMS/AMS (R146). -/
def execFmwPmsAms (c : BitVec 3) (pms : BitVec 3) (ams : BitVec 2) (s : State) : Result :=
  .next (s.setFm ((s.fm.select (channelAddress 7 c)).writePmsAms c pms ams))

/-- FMW DT1/MUL (R147). -/
def execFmwDt1Mul (sl : BitVec 2) (c : BitVec 3) (dt1 : BitVec 3) (mul : BitVec 4) (s : State) : Result :=
  .next (s.setFm ((s.fm.select (operatorAddress 2 sl c)).writeDt1Mul params sl c dt1 mul))

/-- FMW TL (R148). -/
def execFmwTl (sl : BitVec 2) (c : BitVec 3) (tl : BitVec 7) (s : State) : Result :=
  .next (s.setFm ((s.fm.select (operatorAddress 3 sl c)).writeTl sl c tl))

/-- FMW KS/AR (R149). -/
def execFmwKsAr (sl : BitVec 2) (c : BitVec 3) (ks : BitVec 2) (ar : BitVec 5) (s : State) : Result :=
  .next (s.setFm ((s.fm.select (operatorAddress 4 sl c)).writeKsAr params sl c ks ar))

/-- FMW AMSEN/D1R (R150). -/
def execFmwAmsD1r (sl : BitVec 2) (c : BitVec 3) (amsEn : Bool) (d1r : BitVec 5) (s : State) : Result :=
  .next (s.setFm ((s.fm.select (operatorAddress 5 sl c)).writeAmsD1r params sl c amsEn d1r))

/-- FMW DT2/D2R (R151). -/
def execFmwDt2D2r (sl : BitVec 2) (c : BitVec 3) (dt2 : BitVec 2) (d2r : BitVec 5) (s : State) : Result :=
  .next (s.setFm ((s.fm.select (operatorAddress 6 sl c)).writeDt2D2r params sl c dt2 d2r))

/-- FMW D1L/RR (R152). -/
def execFmwD1lRr (sl : BitVec 2) (c : BitVec 3) (d1l rr : BitVec 4) (s : State) : Result :=
  .next (s.setFm ((s.fm.select (operatorAddress 7 sl c)).writeD1lRr params sl c d1l rr))

/-- FMW to an unassigned address (R98, R153): the pair selects it, and the data write changes nothing. -/
def State.selectUnassigned (s : State) (a : Byte) : State :=
  s.setFm (s.fm.select a)

/-- FMW unassigned 0x00 (R153). -/
def execFmwUnassigned00 (_v : Byte) (s : State) : Result :=
  .next (s.selectUnassigned 0x00)

/-- FMW unassigned 0x02 (R153). -/
def execFmwUnassigned02 (_v : Byte) (s : State) : Result :=
  .next (s.selectUnassigned 0x02)

/-- FMW unassigned 0x03 (R153). -/
def execFmwUnassigned03 (_v : Byte) (s : State) : Result :=
  .next (s.selectUnassigned 0x03)

/-- FMW unassigned 0x04 (R153). -/
def execFmwUnassigned04 (_v : Byte) (s : State) : Result :=
  .next (s.selectUnassigned 0x04)

/-- FMW unassigned 0x05 (R153). -/
def execFmwUnassigned05 (_v : Byte) (s : State) : Result :=
  .next (s.selectUnassigned 0x05)

/-- FMW unassigned 0x06 (R153). -/
def execFmwUnassigned06 (_v : Byte) (s : State) : Result :=
  .next (s.selectUnassigned 0x06)

/-- FMW unassigned 0x07 (R153). -/
def execFmwUnassigned07 (_v : Byte) (s : State) : Result :=
  .next (s.selectUnassigned 0x07)

/-- FMW unassigned 0x09 (R153). -/
def execFmwUnassigned09 (_v : Byte) (s : State) : Result :=
  .next (s.selectUnassigned 0x09)

/-- FMW unassigned 0x0A (R153). -/
def execFmwUnassigned0A (_v : Byte) (s : State) : Result :=
  .next (s.selectUnassigned 0x0A)

/-- FMW unassigned 0x0B (R153). -/
def execFmwUnassigned0B (_v : Byte) (s : State) : Result :=
  .next (s.selectUnassigned 0x0B)

/-- FMW unassigned 0x0C (R153). -/
def execFmwUnassigned0C (_v : Byte) (s : State) : Result :=
  .next (s.selectUnassigned 0x0C)

/-- FMW unassigned 0x0D (R153). -/
def execFmwUnassigned0D (_v : Byte) (s : State) : Result :=
  .next (s.selectUnassigned 0x0D)

/-- FMW unassigned 0x0E (R153). -/
def execFmwUnassigned0E (_v : Byte) (s : State) : Result :=
  .next (s.selectUnassigned 0x0E)

/-- FMW unassigned 0x13 (R153). -/
def execFmwUnassigned13 (_v : Byte) (s : State) : Result :=
  .next (s.selectUnassigned 0x13)

/-- FMW unassigned 0x15 (R153). -/
def execFmwUnassigned15 (_v : Byte) (s : State) : Result :=
  .next (s.selectUnassigned 0x15)

/-- FMW unassigned 0x16 (R153). -/
def execFmwUnassigned16 (_v : Byte) (s : State) : Result :=
  .next (s.selectUnassigned 0x16)

/-- FMW unassigned 0x17 (R153). -/
def execFmwUnassigned17 (_v : Byte) (s : State) : Result :=
  .next (s.selectUnassigned 0x17)

/-- FMW unassigned 0x1A (R153). -/
def execFmwUnassigned1A (_v : Byte) (s : State) : Result :=
  .next (s.selectUnassigned 0x1A)

/-- FMW unassigned 0x1C (R153). -/
def execFmwUnassigned1C (_v : Byte) (s : State) : Result :=
  .next (s.selectUnassigned 0x1C)

/-- FMW unassigned 0x1D (R153). -/
def execFmwUnassigned1D (_v : Byte) (s : State) : Result :=
  .next (s.selectUnassigned 0x1D)

/-- FMW unassigned 0x1E (R153). -/
def execFmwUnassigned1E (_v : Byte) (s : State) : Result :=
  .next (s.selectUnassigned 0x1E)

/-- FMW unassigned 0x1F (R153). -/
def execFmwUnassigned1F (_v : Byte) (s : State) : Result :=
  .next (s.selectUnassigned 0x1F)

end Sys2Proof.Machine
end

