-- ==== Sys2Proof/Machine/FmGenerator.lean ====
section
/-! DEFINITION. The FM engine's sample step, spec/41_fm_generator.md: LFO, noise, envelope generator, operators and
algorithms, mixing, phase accumulation, timers and CSM, and the meanings of SAMPLE and SAMPLE n. -/

namespace Sys2Proof.Machine

/-! ### LFO (R171 to R174) -/

/-- The waveform values of R174: the amplitude value and the pitch value at phase `i`. -/
def lfoWaveAt (w : BitVec 2) (p : BitVec 8) : Nat × Int :=
  let i := p.toNat
  match w.toNat with
  | 0 => (255 - i, if i < 128 then (i : Int) else (i : Int) - 255)
  | 1 => (if i < 128 then 255 else 0, if i < 128 then 128 else -128)
  | 2 =>
    (if i < 128 then 255 - 2 * i else 2 * i - 256,
      if i < 64 then 2 * (i : Int)
      else if i < 128 then 255 - 2 * (i : Int)
      else if i < 192 then 256 - 2 * (i : Int)
      else 2 * (i : Int) - 511)
  | _ => ((Config.lfoNoiseWave p).toNat, ((Config.lfoNoiseWave p).toNat : Int) - 128)

/-- `LFO_ADVANCE()` (R171): the phase is held at 0 by TEST bit 1, else `LFO_STEP` moves it; then R174's outputs. -/
def Fm.lfoAdvance (P : Params) (fm : Fm) : Fm :=
  let r :=
    if fm.test.getLsbD 1 then (0, fm.lfoTimer, fm.lfoFrac)
    else P.lfoStep fm.lfrq fm.lfoPhase fm.lfoTimer fm.lfoFrac
  let w := lfoWaveAt fm.lfoWave r.1
  { fm with
    lfoPhase := r.1
    lfoTimer := r.2.1
    lfoFrac := r.2.2
    lfa := w.1 * fm.amd.toNat / 128
    lfp := (w.2 * (fm.pmd.toNat : Int)).tdiv 128 }

/-! ### Noise (R175) -/

/-- One shift of the noise register (R175). -/
def noiseShift (r : BitVec 17) : BitVec 17 :=
  BitVec.ofBool (!(r.getLsbD 0 ^^ r.getLsbD 3)) ++ r.extractLsb' 1 16

/-- `k` shifts of the noise register (R175). -/
def noiseShifts : Nat → BitVec 17 → BitVec 17
  | 0, r => r
  | k + 1, r => noiseShifts k (noiseShift r)

/-- `NOISE_ADVANCE()` (R175). -/
def Fm.noiseAdvance (P : Params) (fm : Fm) : Fm :=
  let sum := fm.noiseAcc.toNat + P.noiseStep fm.nfrq
  { fm with noiseAcc := BitVec.ofNat 16 sum, noiseRng := noiseShifts (sum / 65536) fm.noiseRng }

/-! ### Envelope generator (R180 to R189) -/

/-- `due(o, X)` of R183, for one rate of an operator. -/
def EgRate.due (r : EgRate) (egCnt : BitVec 32) : Bool :=
  egCnt.toNat % 2 ^ r.sh == 0

/-- What a decay or release step adds (R186 to R188): the increment when it is due. -/
def EgRate.rise (P : Params) (r : EgRate) (egCnt : BitVec 32) : Nat :=
  if r.due egCnt then r.inc P egCnt else 0

/-- ATTACK step (R185). -/
def Operator.attackStep (P : Params) (egCnt : BitVec 32) (o : Operator) : Operator :=
  o.landAttack (if o.rateAr.due egCnt then attackLevel o.att (o.rateAr.inc P egCnt) else o.att)

/-- DECAY1 step (R186). -/
def Operator.decay1Step (P : Params) (egCnt : BitVec 32) (o : Operator) : Operator :=
  let a := o.att + o.rateD1r.rise P egCnt
  if a ≥ o.d1lAtt then { o with att := a, eg := .decay2 } else { o with att := a }

/-- The end of a DECAY2 or RELEASE step (R187, R188): at 1023 the operator is OFF. -/
def Operator.fade (o : Operator) (a : Nat) : Operator :=
  if a ≥ 1023 then { o with att := 1023, eg := .off } else { o with att := a }

/-- DECAY2 step (R187). -/
def Operator.decay2Step (P : Params) (egCnt : BitVec 32) (o : Operator) : Operator :=
  o.fade (o.att + o.rateD2r.rise P egCnt)

/-- RELEASE step (R188). -/
def Operator.releaseStep (P : Params) (egCnt : BitVec 32) (o : Operator) : Operator :=
  o.fade (o.att + o.rateRr.rise P egCnt)

/-- The step of an operator's envelope state at an EG tick (R185 to R189). -/
def Operator.egStep (P : Params) (egCnt : BitVec 32) (o : Operator) : Operator :=
  match o.eg with
  | .attack => o.attackStep P egCnt
  | .decay1 => o.decay1Step P egCnt
  | .decay2 => o.decay2Step P egCnt
  | .release => o.releaseStep P egCnt
  | .off => o

/-- An EG tick (R180). -/
def Fm.egTick (P : Params) (fm : Fm) : Fm :=
  let cnt := fm.egCnt + 1
  Fm.onOps { fm with egCnt := cnt } fun _ o => o.egStep P cnt

/-- `EG_DIVIDE()` (R180): a tick every third sample. -/
def Fm.egDivide (P : Params) (fm : Fm) : Fm :=
  if fm.egDiv + 1 = 3 then Fm.egTick P { fm with egDiv := 0 } else { fm with egDiv := fm.egDiv + 1 }

/-! ### Operator and channel output (R195 to R206) -/

/-- `AM(c)` of R195. -/
def amOf (lfa : Nat) (ams : BitVec 2) : Nat :=
  if ams = 0 then 0 else lfa * 2 ^ (ams.toNat - 1)

/-- `env(o)` by the formula of R195, with no bound: it reaches 3055, past the range 0..2547 that the rule derives for it.
DEDUCED, log 28. -/
def envOf (lfa : Nat) (ch : Channel) (o : Operator) : Nat :=
  o.att + o.tlAtt + (if o.amsEn then amOf lfa ch.ams else 0)

/-- `ENV_QUIET` (R196). -/
def envQuiet : Nat :=
  832

/-- An operator's output for a phase offset (R198, R201): 0 from `ENV_QUIET` on. -/
def operatorOut (P : Params) (lfa : Nat) (ch : Channel) (o : Operator) (offset : Int) : Int :=
  let e := envOf lfa ch o
  if e < envQuiet then P.opOut (((o.phase.toNat / 65536 : Nat) + offset) % 1024).toNat e else 0

/-- The phase offset of the feedback (R198). -/
def feedbackOffset (fb : BitVec 3) (sum : Int) : Int :=
  if fb = 0 then 0 else asr sum (10 - fb.toNat)

/-- The connections within a channel in one sample (R199): the operator inputs, the delay accumulator, the output. -/
structure Bus where
  inM2 : Int
  inC1 : Int
  inC2 : Int
  mem : Int
  out : Int
deriving DecidableEq, Repr

/-- The delivery of the delay cell at the start of a sample (R199). -/
def Bus.start (con : BitVec 3) (mem : Int) : Bus :=
  match con.toNat with
  | 0 => ⟨mem, 0, 0, 0, 0⟩
  | 1 => ⟨mem, 0, 0, 0, 0⟩
  | 2 => ⟨mem, 0, 0, 0, 0⟩
  | 3 => ⟨0, 0, mem, 0, 0⟩
  | 5 => ⟨mem, 0, 0, 0, 0⟩
  | _ => ⟨0, 0, 0, 0, 0⟩

/-- The delivery of M1's output (R199). -/
def Bus.fromM1 (con : BitVec 3) (y : Int) (b : Bus) : Bus :=
  match con.toNat with
  | 0 => { b with inC1 := b.inC1 + y }
  | 1 => { b with mem := b.mem + y }
  | 2 => { b with inC2 := b.inC2 + y }
  | 3 => { b with inC1 := b.inC1 + y }
  | 4 => { b with inC1 := b.inC1 + y }
  | 5 => { b with inC1 := b.inC1 + y, mem := b.mem + y, inC2 := b.inC2 + y }
  | 6 => { b with inC1 := b.inC1 + y }
  | _ => { b with out := b.out + y }

/-- The delivery of M2's output (R199). -/
def Bus.fromM2 (con : BitVec 3) (y : Int) (b : Bus) : Bus :=
  if con.toNat < 5 then { b with inC2 := b.inC2 + y } else { b with out := b.out + y }

/-- The delivery of C1's output (R199). -/
def Bus.fromC1 (con : BitVec 3) (y : Int) (b : Bus) : Bus :=
  if con.toNat < 4 then { b with mem := b.mem + y } else { b with out := b.out + y }

/-- The noise output that replaces C2 of channel 7 (R205). -/
def noiseOut (env : Nat) (rng : BitVec 17) : Int :=
  let n : Int := if env < 1023 then ((env ^^^ 1023) * 2 : Nat) else 0
  if rng.getLsbD 16 then n else -n

/-- Slot 0 (M1) of a channel (R198): the channel with its feedback moved on; M1 delivers its output of the sample
before, which is the new `fb_prev`. -/
def Channel.feedback (P : Params) (lfa : Nat) (ch : Channel) : Channel :=
  let sum := ch.fbPrev + ch.fbCur
  { ch with
    fbPrev := ch.fbCur
    fbCur := operatorOut P lfa ch ch.ops.m1 (feedbackOffset ch.fb sum) }

/-- `CHANNEL_OUT(c)` (R201): the channel after the sample and its output; `noise` is the noise register when it
replaces C2 (R205). -/
def Channel.output (P : Params) (lfa : Nat) (noise : Option (BitVec 17)) (ch : Channel) : Channel × Int :=
  let ch1 := ch.feedback P lfa
  let b0 := (Bus.start ch.con ch.mem).fromM1 ch.con ch1.fbPrev
  let b1 := b0.fromM2 ch.con (operatorOut P lfa ch ch.ops.m2 (asr b0.inM2 1))
  let b2 := b1.fromC1 ch.con (operatorOut P lfa ch ch.ops.c1 (asr b1.inC1 1))
  let y :=
    match noise with
    | none => operatorOut P lfa ch ch.ops.c2 (asr b2.inC2 1)
    | some rng => noiseOut (envOf lfa ch ch.ops.c2) rng
  ({ ch1 with mem := b2.mem }, b2.out + y)

/-- The eight channels after the sample, with their outputs (R170, R205: noise on channel 7 alone). -/
def Fm.channelOutputs (P : Params) (fm : Fm) : Octet (Channel × Int) :=
  let plain := fm.chans.map (Channel.output P fm.lfa none)
  { plain with x7 := Channel.output P fm.lfa (if fm.ne then some fm.noiseRng else none) fm.chans.x7 }

/-! ### Mixing (R210) -/

/-- The sum of the channels one side hears (R210): side 0 left, side 1 right. -/
def mixSide (side : Nat) (cs : Octet (Channel × Int)) : Int :=
  (cs.map fun c => if c.1.rl.getLsbD side then c.2 else 0).toList.sum

/-- One side of `MIX` (R210): the sum, clamped once to the 16-bit signed range. -/
def mix (side : Nat) (cs : Octet (Channel × Int)) : Int :=
  clamp (mixSide side cs) (-32768) 32767

/-! ### Phase accumulation (R213) -/

/-- The pitch-modulation offset of a channel (R213). -/
def pmOffset (lfp : Int) (pms : BitVec 3) : Int :=
  if pms.toNat < 6 then asr lfp (6 - pms.toNat) else lfp * (2 ^ (pms.toNat - 5) : Nat)

/-- The increment of an operator's phase in this sample (R213). -/
def phaseStep (P : Params) (lfp : Int) (ch : Channel) (o : Operator) : BitVec 32 :=
  if ch.pms = 0 then o.freq
  else
    let m := pmOffset lfp ch.pms
    if m = 0 then o.freq else P.phaseInc ch.kc ch.kf m o.dt1 o.dt2 o.mul

/-- `PHASE_ADVANCE(o)` (R213). -/
def Operator.phaseAdvance (P : Params) (lfp : Int) (ch : Channel) (o : Operator) : Operator :=
  { o with phase := o.phase + phaseStep P lfp ch o }

/-! ### CSM and the FM timers (R220 to R224) -/

/-- `CSM_STEP()` (R223, R224). -/
def Fm.csmStep (P : Params) (fm : Fm) : Fm :=
  if fm.csmReq = 2 then Fm.onOps { fm with csmReq := 1 } fun _ o => o.keyOn P fm.egCnt 2
  else if fm.csmReq = 1 then Fm.onOps { fm with csmReq := 0 } fun _ o => o.keyOff 2
  else fm

/-- Timer A at the end of a sample (R220). -/
def Fm.timerA (fm : Fm) : Fm :=
  if fm.loadA then
    if fm.taCnt - 1 = 0 then
      { fm with
        taCnt := fm.taPeriod
        flagA := fm.flagA || fm.irqenA
        csmReq := if fm.csm then 2 else fm.csmReq }
    else { fm with taCnt := fm.taCnt - 1 }
  else fm

/-- Timer B at the end of a sample (R221). -/
def Fm.timerB (fm : Fm) : Fm :=
  if fm.loadB then
    if fm.tbCnt - 1 = 0 then { fm with tbCnt := fm.tbPeriod, flagB := fm.flagB || fm.irqenB }
    else { fm with tbCnt := fm.tbCnt - 1 }
  else fm

/-- `FM_TIMERS()` (R220 to R222). -/
def Fm.timers (fm : Fm) : Fm :=
  fm.timerA.timerB.refreshIrq

/-! ### The sample step (R170, R411) -/

/-- The generators that run before the channels (R170): LFO, noise, envelope. -/
def Fm.generators (P : Params) (fm : Fm) : Fm :=
  ((fm.lfoAdvance P).noiseAdvance P).egDivide P

/-- The channels, the mix and the phases of a sample (R170). -/
def Fm.sound (P : Params) (fm : Fm) : Fm :=
  let cs := fm.channelOutputs P
  Fm.onOps { fm with chans := cs.map Prod.fst, outL := mix 0 cs, outR := mix 1 cs } (Operator.phaseAdvance P fm.lfp)

/-- `AdvanceSample()` on the FM engine (R170). -/
def Fm.advance (P : Params) (fm : Fm) : Fm :=
  (((fm.generators P).sound P).csmStep P).timers

/-- `AdvanceSample()` (R170): the frame is returned. -/
def State.advanceSample (P : Params) (s : State) : State :=
  let fm := s.fm.advance P
  (s.setFm fm).output (.frame fm.outL fm.outR)

/-- `AdvanceSamples(n)` (R411): n successive samples. -/
def State.advanceSamples (P : Params) : Nat → State → State
  | 0, s => s
  | n + 1, s => State.advanceSamples P n (s.advanceSample P)

/-- SAMPLE (R170). -/
def execSample (s : State) : Result :=
  .next (s.advanceSample params)

/-- SAMPLE n (R411). -/
def execSamples (n : Nat) (s : State) : Result :=
  .next (State.advanceSamples params n s)

end Sys2Proof.Machine
end

