-- ==== Sys2Proof/Machine/Midi.lean ====
section
/-! DEFINITION. The MIDI byte-stream classifier and framer, spec/45_midi_classifier.md: the feed operation for any table
set, the flow-path row, and the meanings of the MIDI rows, MIDI s, b and FLOW. -/

namespace Sys2Proof.Machine

/-- A status byte (R120). -/
def isStatus (b : Byte) : Bool :=
  b.getLsbD 7

/-- `APPEND` (R343): a full accumulator is unchanged. -/
def appendAcc (acc : List Byte) (b : Byte) : List Byte :=
  if acc.length < accCap then acc ++ [b] else acc

/-- The state a byte leads to (R340 to R342). -/
def MpcTables.nextState (t : MpcTables) (q : Nat) (b : Byte) : Nat :=
  if isStatus b then
    if b.extractLsb' 4 4 = 0xF#4 then t.sysNext (b.extractLsb' 0 4) else t.statusNext (b.extractLsb' 4 4)
  else t.dataNext q b

/-- The accumulator a byte leaves before any forwarding (R340, R341, R343); `q` is the new state. -/
def MpcTables.nextAcc (t : MpcTables) (acc : List Byte) (q : Nat) (b : Byte) : List Byte :=
  if isStatus b then [b] else if t.keep q then appendAcc acc b else []

/-- The byte goes to the SysEx engine (R344): a status byte that arrives in a System-Exclusive state, or any byte whose
new state is one. Each byte goes at most once. -/
def MpcTables.toSysex (t : MpcTables) (q0 q : Nat) (b : Byte) : Bool :=
  (isStatus b && t.sysexState q0) || t.sysexState q

/-- The bit of a destination in a route or flow mask (R345). -/
def Dest.bit : Dest → Nat
  | .synth => 0
  | .midiOut => 1
  | .host => 2

/-- The destinations in delivery order (R345). -/
def destinations : List Dest :=
  [.synth, .midiOut, .host]

/-- The deliveries of `FORWARD` (R345): each destination whose route and flow bits are both 1. -/
def deliveries (s : Stream) (route flow : BitVec 3) (msg : List Byte) : List Event :=
  (destinations.filter fun d => route.getLsbD d.bit && flow.getLsbD d.bit).map fun d => .emit d s msg

/-- What the accumulator keeps after forwarding (R345, R346): the status byte. -/
def keepStatus (acc : List Byte) : List Byte :=
  match acc with
  | b :: _ => if isStatus b then [b] else []
  | [] => []

/-- `MidiFeed(s, b)` on a classifier (R340), for a table set: the classifier after the byte and the events, in order. -/
def Mpc.feed (t : MpcTables) (s : Stream) (m : Mpc) (b : Byte) : Mpc × List Event :=
  let q := t.nextState m.state b
  let acc := t.nextAcc m.acc q b
  let sent := if t.toSysex m.state q b then [Event.sysex s b] else []
  match t.term q with
  | some (route, len) =>
    ({ m with state := q, acc := keepStatus acc }, sent ++ deliveries s route m.flow (acc.take len))
  | none => ({ m with state := q, acc := acc }, sent)

/-- `MidiFeed(s, b)` (R340) for a table set. -/
def State.midiFeedWith (t : MpcTables) (s : State) (st : Stream) (b : Byte) : State :=
  let r := (s.mpc st).feed t st b
  r.2.foldl State.output (s.setMpc st r.1)

/-- `MidiFeed(s, b)` (R340) with the default tables. -/
def State.midiFeed (s : State) (st : Stream) (b : Byte) : State :=
  s.midiFeedWith params.tables st b

/-- `SetFlow(s, m)` (R350). -/
def State.setFlow (s : State) (st : Stream) (m : BitVec 3) : State :=
  s.setMpc st { s.mpc st with flow := m }

/-- FLOW s, m (R350). -/
def execFlow (st : Stream) (m : BitVec 3) (s : State) : Result :=
  .next (s.setFlow st m)

/-- MIDI s, b (R340). -/
def execMidiFeed (st : Stream) (b : Byte) (s : State) : Result :=
  .next (s.midiFeed st b)

/-- MIDI data byte (R342). -/
def execMidiData (st : Stream) (data : BitVec 7) (s : State) : Result :=
  .next (s.midiFeed st (0#1 ++ data))

/-- MIDI status 0x8n note off (R341, R352). -/
def execMidiNoteOff (st : Stream) (channel : BitVec 4) (s : State) : Result :=
  .next (s.midiFeed st (0x8#4 ++ channel))

/-- MIDI status 0x9n note on (R341, R352). -/
def execMidiNoteOn (st : Stream) (channel : BitVec 4) (s : State) : Result :=
  .next (s.midiFeed st (0x9#4 ++ channel))

/-- MIDI status 0xAn polyphonic key pressure (R341, R352). -/
def execMidiPolyPressure (st : Stream) (channel : BitVec 4) (s : State) : Result :=
  .next (s.midiFeed st (0xA#4 ++ channel))

/-- MIDI status 0xBn control change (R341, R352). -/
def execMidiControlChange (st : Stream) (channel : BitVec 4) (s : State) : Result :=
  .next (s.midiFeed st (0xB#4 ++ channel))

/-- MIDI status 0xCn program change (R341, R352). -/
def execMidiProgramChange (st : Stream) (channel : BitVec 4) (s : State) : Result :=
  .next (s.midiFeed st (0xC#4 ++ channel))

/-- MIDI status 0xDn channel pressure (R341, R352). -/
def execMidiChannelPressure (st : Stream) (channel : BitVec 4) (s : State) : Result :=
  .next (s.midiFeed st (0xD#4 ++ channel))

/-- MIDI status 0xEn pitch bend (R341, R352). -/
def execMidiPitchBend (st : Stream) (channel : BitVec 4) (s : State) : Result :=
  .next (s.midiFeed st (0xE#4 ++ channel))

/-- MIDI status 0xF0 system exclusive (R341, R353). -/
def execMidiSysEx (st : Stream) (s : State) : Result :=
  .next (s.midiFeed st 0xF0)

/-- MIDI status 0xF1 time code quarter frame (R341, R353). -/
def execMidiTimeCode (st : Stream) (s : State) : Result :=
  .next (s.midiFeed st 0xF1)

/-- MIDI status 0xF2 song position (R341, R353). -/
def execMidiSongPosition (st : Stream) (s : State) : Result :=
  .next (s.midiFeed st 0xF2)

/-- MIDI status 0xF3 song select (R341, R353). -/
def execMidiSongSelect (st : Stream) (s : State) : Result :=
  .next (s.midiFeed st 0xF3)

/-- MIDI status 0xF4 undefined system common (R341, R353). -/
def execMidiUndefinedF4 (st : Stream) (s : State) : Result :=
  .next (s.midiFeed st 0xF4)

/-- MIDI status 0xF5 undefined system common (R341, R353). -/
def execMidiUndefinedF5 (st : Stream) (s : State) : Result :=
  .next (s.midiFeed st 0xF5)

/-- MIDI status 0xF6 tune request (R341, R353). -/
def execMidiTuneRequest (st : Stream) (s : State) : Result :=
  .next (s.midiFeed st 0xF6)

/-- MIDI status 0xF7 end of exclusive (R341, R353). -/
def execMidiEndOfExclusive (st : Stream) (s : State) : Result :=
  .next (s.midiFeed st 0xF7)

/-- MIDI status 0xF8..0xFF system real-time (R341, R353). -/
def execMidiRealTime (st : Stream) (rt : BitVec 3) (s : State) : Result :=
  .next (s.midiFeed st (0x1F#5 ++ rt))

end Sys2Proof.Machine
end

