-- ==== Sys2Proof/Machine/NetPorts.lean ====
section
/-! DEFINITION. The network's two registers, spec/44_interrupt_network.md R314 to R316, and the meanings of their rows.
`NET_UPDATE` is in Sys2Proof/Machine/Ops.lean. -/

namespace Sys2Proof.Machine

/-- TCR write (R314): the register, then `NET_UPDATE()`. -/
def State.writeTcr (s : State) (v : Byte) : State :=
  State.netUpdate (s.setNet { s.net with tcr := v })

/-- OUT NET.TCR (R314): the four offsets reach one register. -/
def execOutNetTcr (_mirror : BitVec 2) (v : Byte) (s : State) : Result :=
  .next (s.writeTcr v)

/-- OUT NET.TSR (R316): ignored. -/
def execOutNetTsr (_mirror : BitVec 2) (_v : Byte) (s : State) : Result :=
  .next s

/-- IN NET.TCR (R315). -/
def execInNetTcr (mirror : BitVec 2) (s : State) : Result :=
  .next (s.output (.portRead (2#2 ++ mirror) s.net.tcr))

/-- IN NET.TSR (R316). -/
def execInNetTsr (mirror : BitVec 2) (s : State) : Result :=
  .next (s.output (.portRead (3#2 ++ mirror) (tsr s.net s.piuH)))

end Sys2Proof.Machine
end

