-- ==== Sys2Proof/Machine/Pit.lean ====
section
/-! DEFINITION. The interval timer, spec/42_interval_timer.md: the command port, the counter ports, the tick, and the
meanings of their rows. -/

namespace Sys2Proof.Machine

/-! ### Command port (R240, R241) -/

/-- The latch command for a counter (R240): a pending latch is kept. It leaves the write toggle, as R240's pseudocode does;
R402 says "a command byte" resets it, which is read of a non-latch command. DEDUCED, log 29. -/
def Counter.latchNow (c : Counter) : Counter :=
  if c.latched then c else { c with latch := c.run, latched := true, rdHi := false }

/-- The control command for a counter (R240): it restarts both byte toggles (R402, log 29) and discards a pending latch. -/
def Counter.control (c : Counter) (rw : BitVec 2) (mode : BitVec 3) (bcd : Bool) : Counter :=
  { c with rw := rw, mode := mode, bcd := bcd, wrHi := false, rdHi := false, latched := false }

/-- Change the counter `sc` selects; `sc` = 3 selects none and changes nothing (R241). -/
def Pit.onSelected (p : Pit) (sc : BitVec 2) (f : Counter → Counter) : Pit :=
  match CounterId.ofSc sc with
  | some n => p.set n (f (p.get n))
  | none => p

/-- OUT PIT.CMD, counter latch (R240). -/
def execOutPitLatch (sc : BitVec 2) (s : State) : Result :=
  .next (s.setPit (s.pit.onSelected sc Counter.latchNow))

/-- OUT PIT.CMD, control (R240). -/
def execOutPitControl (sc rw : BitVec 2) (mode : BitVec 3) (bcd : Bool) (s : State) : Result :=
  .next (s.setPit (s.pit.onSelected sc fun c => c.control rw mode bcd))

/-- OUT PIT.CMD with `sc` = 3 (R241): no state changes. -/
def execOutPitIgnored (_low : BitVec 6) (s : State) : Result :=
  .next s

/-! ### Counter ports (R242, R245) -/

/-- A counter load (R242). `rw` = 0 is never stored; the last arm changes nothing (log 12). -/
def Counter.write (c : Counter) (v : Byte) : Counter :=
  match c.rw.toNat with
  | 1 => { c with load := 0#8 ++ v, run := 0#8 ++ v }
  | 2 => { c with load := v ++ 0#8, run := v ++ 0#8 }
  | 3 =>
    if c.wrHi then
      { c with load := v ++ lowByte c.load, wrHi := false, run := v ++ lowByte c.load }
    else { c with load := highByte c.load ++ v, wrHi := true }
  | _ => c

/-- What a counter read takes its byte from (R245): the latch while a latched value waits, else the running count. -/
def Counter.source (c : Counter) : Count :=
  if c.latched then c.latch else c.run

/-- A counter read-back (R245): the byte and the counter after it. `rw` = 0 is never stored; the last arm returns the
drawn byte and changes nothing (log 12). -/
def Counter.read (c : Counter) (d : Byte) : Byte × Counter :=
  match c.rw.toNat with
  | 1 => (lowByte c.source, { c with latched := false })
  | 2 => (highByte c.source, { c with latched := false })
  | 3 =>
    if c.rdHi then (highByte c.source, { c with rdHi := false, latched := false })
    else (lowByte c.source, { c with rdHi := true })
  | _ => (d, c)

/-- A counter load of `pit[n]` (R242, R243). -/
def State.pitWrite (s : State) (n : CounterId) (v : Byte) : State :=
  s.setPit (s.pit.set n ((s.pit.get n).write v))

/-- A counter read-back of `pit[n]` (R245). -/
def State.pitRead (s : State) (n : CounterId) : State :=
  let r := (s.pit.get n).read s.drawn
  (s.setPit (s.pit.set n r.2)).output (.portRead n.offset r.1)

/-- OUT PIT.CNT0 (R242). -/
def execOutPitCnt0 (v : Byte) (s : State) : Result :=
  .next (s.pitWrite .cnt0 v)

/-- OUT PIT.CNT1 (R242, R243). -/
def execOutPitCnt1 (v : Byte) (s : State) : Result :=
  .next (s.pitWrite .cnt1 v)

/-- OUT PIT.CNT2 (R242, R243). -/
def execOutPitCnt2 (v : Byte) (s : State) : Result :=
  .next (s.pitWrite .cnt2 v)

/-- IN PIT.CNT0 (R245). -/
def execInPitCnt0 (s : State) : Result :=
  .next (s.pitRead .cnt0)

/-- IN PIT.CNT1 (R245). -/
def execInPitCnt1 (s : State) : Result :=
  .next (s.pitRead .cnt1)

/-- IN PIT.CNT2 (R245). -/
def execInPitCnt2 (s : State) : Result :=
  .next (s.pitRead .cnt2)

/-- IN PIT.CMD (R123, R90): write-only, any byte, no side effect. -/
def execInPitCmd (s : State) : Result :=
  .next (s.takeDraw.output (.portRead 7 s.drawn))

/-! ### Tick and output line (R247 to R251) -/

/-- One level of the timer output line, followed by `NET_UPDATE()` (R247, R249, R320). -/
def State.driveOut0 (s : State) (level : Bool) : State :=
  State.netUpdate (s.setPit { s.pit with out0 := level })

/-- `PitTick()` for a tick mode (R247, R249): only counter 0 is ticked (R248). -/
def State.pitTickWith (m : TickMode) (s : State) : State :=
  let r := m s.pit.cnt0 s.pit.out0
  r.2.foldl State.driveOut0 (s.setPit { s.pit with cnt0 := { s.pit.cnt0 with run := r.1 } })

/-- TICK (R247). -/
def execTick (s : State) : Result :=
  .next (State.pitTickWith params.tickMode s)

end Sys2Proof.Machine
end

