-- ==== Sys2Proof/Machine/PiuPorts.lean ====
section
/-! DEFINITION. The two parallel interface units, spec/43_piu.md: the mode register, the data ports and port C, and the
meanings of their host and firmware rows. The handshake itself is `PIU_UPDATE` in Sys2Proof/Machine/Ops.lean. -/

namespace Sys2Proof.Machine

/-! ### Mode register (R276 to R278) -/

/-- The fields a mode word sets and the latches and flags it clears (R276); the input latches are kept. -/
def Piu.setMode (p : Piu) (m : ModeWord) : Piu :=
  { p with
    ma := m.ma, dirA := m.dirA, dirCh := m.dirCh, mb := m.mb, dirB := m.dirB, dirCl := m.dirCl,
    outA := 0, outB := 0, outC := 0,
    obfA := false, obfB := false, ibfA := false, ibfB := false,
    inteA := false, inteB := false, intrA := false, intrB := false }

/-- Port C bit set/reset (R278): an interrupt enable, nothing for another handshake bit, else the latch bit. -/
def Piu.bitSet (p : Piu) (n : BitVec 3) (b : Bool) : Piu :=
  if p.isInteA n.toNat then { p with inteA := b }
  else if p.isInteB n.toNat then { p with inteB := b }
  else if p.taken n.toNat then p
  else { p with outC := setBit p.outC n.toNat b }

/-- A mode word written to a unit (R276). -/
def State.piuSetMode (s : State) (q : PiuId) (m : ModeWord) : State :=
  (s.setPiu q ((s.piu q).setMode m)).piuUpdate

/-- A port C bit set/reset written to a unit (R278). -/
def State.piuBitSet (s : State) (q : PiuId) (n : BitVec 3) (b : Bool) : State :=
  (s.setPiu q ((s.piu q).bitSet n b)).piuUpdate

/-! ### Data ports (R279 to R281) -/

/-- The latch and flag a data-port write changes when it is not ignored (R279). -/
def Piu.writeData (p : Piu) (x : Port) (v : Byte) : Piu :=
  let p1 := p.setOut x v
  if p.strobed x then p1.setObf x true else p1

/-- Writing a data port (R279): ignored in strobed input mode. -/
def State.piuWrite (s : State) (q : PiuId) (x : Port) (v : Byte) : State :=
  if (s.piu q).strobedIn x then s
  else (s.setPiu q ((s.piu q).writeData x v)).piuUpdate

/-- The event of a data-port read: the host's offset or the firmware's register (R90, R92). -/
def portEvent (q : PiuId) (x : Port) (v : Byte) : Event :=
  match q, x with
  | .h, .a => .portRead 0 v
  | .h, .b => .portRead 1 v
  | .f, .a => .fwRead .pa v
  | .f, .b => .fwRead .pb v

/-- A port of the unit is driven as output (R272). -/
def Piu.drives (p : Piu) (x : Port) : Bool :=
  !p.dir x && p.basicOrStrobed x

/-- Reading a data port in strobed input mode (R280): the byte, and the acknowledge dropped. -/
def State.piuReadStrobed (s : State) (q : PiuId) (x : Port) : State :=
  (State.piuUpdate (s.setPiu q ((s.piu q).setIbf x false))).output (portEvent q x ((s.piu q).inp x))

/-- Reading a data port in any other case (R281): the latch, the counterpart's driven latch, or any byte. -/
def State.piuReadPlain (s : State) (q : PiuId) (x : Port) : State :=
  if !(s.piu q).dir x then s.output (portEvent q x ((s.piu q).out x))
  else if (s.piu q.other).drives x then s.output (portEvent q x ((s.piu q.other).out x))
  else s.takeDraw.output (portEvent q x s.drawn)

/-- Reading a data port (R280, R281). -/
def State.piuRead (s : State) (q : PiuId) (x : Port) : State :=
  if (s.piu q).strobedIn x then s.piuReadStrobed q x else s.piuReadPlain q x

/-! ### Port C (R283, R284) -/

/-- One bit of a whole-port write of port C (R284): a taken bit is unchanged. -/
def Piu.writeCBit (p : Piu) (v : Byte) (n : Nat) : Bool :=
  if p.taken n then p.outC.getLsbD n else v.getLsbD n

/-- Writing port C of a unit (R284). -/
def Piu.writeC (p : Piu) (v : Byte) : Piu :=
  { p with
    outC := byteOfBits (p.writeCBit v 7) (p.writeCBit v 6) (p.writeCBit v 5) (p.writeCBit v 4)
      (p.writeCBit v 3) (p.writeCBit v 2) (p.writeCBit v 1) (p.writeCBit v 0) }

/-- Writing port C (R284). -/
def State.piuWriteC (s : State) (q : PiuId) (v : Byte) : State :=
  (s.setPiu q ((s.piu q).writeC v)).piuUpdate

/-- The event of a port C read. -/
def portCEvent (q : PiuId) (v : Byte) : Event :=
  match q with
  | .h => .portRead 2 v
  | .f => .fwRead .pc v

/-- Reading port C (R283, R117): no side effect on the block; its undriven bits are those of one drawn byte (log 19). -/
def State.piuReadC (s : State) (q : PiuId) : State :=
  s.takeDraw.output (portCEvent q ((s.piu q).portC s.drawn))

/-! ### The host's rows -/

/-- OUT PIU_H.PA (R279). -/
def execOutPiuHPa (v : Byte) (s : State) : Result :=
  .next (s.piuWrite .h .a v)

/-- OUT PIU_H.PB (R279). -/
def execOutPiuHPb (v : Byte) (s : State) : Result :=
  .next (s.piuWrite .h .b v)

/-- OUT PIU_H.PC (R284). -/
def execOutPiuHPc (v : Byte) (s : State) : Result :=
  .next (s.piuWriteC .h v)

/-- OUT PIU_H.MODE, mode word (R276). -/
def execOutPiuHMode (m : ModeWord) (s : State) : Result :=
  .next (s.piuSetMode .h m)

/-- OUT PIU_H.MODE, bidirectional (R277): the refusal mark and nothing else. -/
def execOutPiuHModeBidir (_low : BitVec 6) (s : State) : Result :=
  .next (s.refuse .piuBidirectional)

/-- OUT PIU_H.MODE, port C bit set/reset (R278). -/
def execOutPiuHBsr (n : BitVec 3) (b : Bool) (s : State) : Result :=
  .next (s.piuBitSet .h n b)

/-- IN PIU_H.PA (R280, R281). -/
def execInPiuHPa (s : State) : Result :=
  .next (s.piuRead .h .a)

/-- IN PIU_H.PB (R280, R281). -/
def execInPiuHPb (s : State) : Result :=
  .next (s.piuRead .h .b)

/-- IN PIU_H.PC (R283). -/
def execInPiuHPc (s : State) : Result :=
  .next (s.piuReadC .h)

/-- IN PIU_H.MODE (R123, R90): write-only, any byte, no side effect. -/
def execInPiuHMode (s : State) : Result :=
  .next (s.takeDraw.output (.portRead 3 s.drawn))

/-! ### The firmware's rows -/

/-- FWOUT FW_PA (R279). -/
def execFwoutPa (v : Byte) (s : State) : Result :=
  .next (s.piuWrite .f .a v)

/-- FWOUT FW_PB (R279). -/
def execFwoutPb (v : Byte) (s : State) : Result :=
  .next (s.piuWrite .f .b v)

/-- FWOUT FW_PC (R284). -/
def execFwoutPc (v : Byte) (s : State) : Result :=
  .next (s.piuWriteC .f v)

/-- FWOUT FW_MODE, mode word (R276). -/
def execFwoutMode (m : ModeWord) (s : State) : Result :=
  .next (s.piuSetMode .f m)

/-- FWOUT FW_MODE, bidirectional (R277): the refusal mark and nothing else. -/
def execFwoutModeBidir (_low : BitVec 6) (s : State) : Result :=
  .next (s.refuse .piuBidirectional)

/-- FWOUT FW_MODE, port C bit set/reset (R278). -/
def execFwoutBsr (n : BitVec 3) (b : Bool) (s : State) : Result :=
  .next (s.piuBitSet .f n b)

/-- FWIN FW_PA (R280, R281). -/
def execFwinPa (s : State) : Result :=
  .next (s.piuRead .f .a)

/-- FWIN FW_PB (R280, R281). -/
def execFwinPb (s : State) : Result :=
  .next (s.piuRead .f .b)

/-- FWIN FW_PC (R283). -/
def execFwinPc (s : State) : Result :=
  .next (s.piuReadC .f)

/-- FWIN FW_MODE (R123, R92): write-only, any byte, no side effect. -/
def execFwinMode (s : State) : Result :=
  .next (s.takeDraw.output (.fwRead .mode s.drawn))

end Sys2Proof.Machine
end

