-- ==== Sys2Proof/Machine/ResetOp.lean ====
section
/-! DEFINITION. The operation `Reset()`, spec/70_reset_and_hazards.md R390, R394. -/

namespace Sys2Proof.Machine

/-- The FM engine after reset (R390): every register at its reset value, and the derived fields as R155 and R156 compute
them from those registers (R391). -/
def Fm.resetFor (P : Params) : Fm :=
  { Fm.reset with chans := Fm.reset.chans.map fun ch => (ch.refreshFreq P).refreshEnvelope P }

/-- `Reset()` (R390): every field of the block at its reset value, with the model's own fields kept (log 17). -/
def State.resetOp (P : Params) (s : State) : State :=
  { State.reset with fm := Fm.resetFor P, pending := s.pending, trace := s.trace, draws := s.draws }

/-- RESET (R390): every field of the block at its reset value and the refusal mark cleared, in every state (R394), with
no callback and no message (R328). The model's own fields are kept: they belong to the outside (log 17). -/
def execReset (s : State) : Result :=
  .next (s.resetOp params)

end Sys2Proof.Machine
end

