-- ==== Sys2Proof/Machine/Dispatch.lean ====
section
/-! DEFINITION. What each operation does: one arm for each row of spec/opcode_table.json. -/

namespace Sys2Proof.Machine

def exec (i : Instr) (s : State) : Host.Outcome State Fault Refusal :=
  match i with
  | .outPiuHPa v => Sys2Proof.Machine.execOutPiuHPa v s
  | .outPiuHPb v => Sys2Proof.Machine.execOutPiuHPb v s
  | .outPiuHPc v => Sys2Proof.Machine.execOutPiuHPc v s
  | .outPiuHMode m => Sys2Proof.Machine.execOutPiuHMode m s
  | .outPiuHModeBidir low => Sys2Proof.Machine.execOutPiuHModeBidir low s
  | .outPiuHBsr n b => Sys2Proof.Machine.execOutPiuHBsr n b s
  | .outPitCnt0 v => Sys2Proof.Machine.execOutPitCnt0 v s
  | .outPitCnt1 v => Sys2Proof.Machine.execOutPitCnt1 v s
  | .outPitCnt2 v => Sys2Proof.Machine.execOutPitCnt2 v s
  | .outPitLatch sc => Sys2Proof.Machine.execOutPitLatch sc s
  | .outPitControl sc rw mode bcd => Sys2Proof.Machine.execOutPitControl sc rw mode bcd s
  | .outPitIgnored low => Sys2Proof.Machine.execOutPitIgnored low s
  | .outNetTcr mirror v => Sys2Proof.Machine.execOutNetTcr mirror v s
  | .outNetTsr mirror v => Sys2Proof.Machine.execOutNetTsr mirror v s
  | .inPiuHPa => Sys2Proof.Machine.execInPiuHPa s
  | .inPiuHPb => Sys2Proof.Machine.execInPiuHPb s
  | .inPiuHPc => Sys2Proof.Machine.execInPiuHPc s
  | .inPiuHMode => Sys2Proof.Machine.execInPiuHMode s
  | .inPitCnt0 => Sys2Proof.Machine.execInPitCnt0 s
  | .inPitCnt1 => Sys2Proof.Machine.execInPitCnt1 s
  | .inPitCnt2 => Sys2Proof.Machine.execInPitCnt2 s
  | .inPitCmd => Sys2Proof.Machine.execInPitCmd s
  | .inNetTcr mirror => Sys2Proof.Machine.execInNetTcr mirror s
  | .inNetTsr mirror => Sys2Proof.Machine.execInNetTsr mirror s
  | .fwoutPa v => Sys2Proof.Machine.execFwoutPa v s
  | .fwoutPb v => Sys2Proof.Machine.execFwoutPb v s
  | .fwoutPc v => Sys2Proof.Machine.execFwoutPc v s
  | .fwoutMode m => Sys2Proof.Machine.execFwoutMode m s
  | .fwoutModeBidir low => Sys2Proof.Machine.execFwoutModeBidir low s
  | .fwoutBsr n b => Sys2Proof.Machine.execFwoutBsr n b s
  | .fwoutFmSel v => Sys2Proof.Machine.execFwoutFmSel v s
  | .fwoutFmData v => Sys2Proof.Machine.execFwoutFmData v s
  | .fwinPa => Sys2Proof.Machine.execFwinPa s
  | .fwinPb => Sys2Proof.Machine.execFwinPb s
  | .fwinPc => Sys2Proof.Machine.execFwinPc s
  | .fwinMode => Sys2Proof.Machine.execFwinMode s
  | .fwinFmSel => Sys2Proof.Machine.execFwinFmSel s
  | .fwinFmData => Sys2Proof.Machine.execFwinFmData s
  | .fmwTest v => Sys2Proof.Machine.execFmwTest v s
  | .fmwKon c m1 c1 m2 c2 => Sys2Proof.Machine.execFmwKon c m1 c1 m2 c2 s
  | .fmwNoise ne nfrq => Sys2Proof.Machine.execFmwNoise ne nfrq s
  | .fmwClka1 hi => Sys2Proof.Machine.execFmwClka1 hi s
  | .fmwClka2 lo => Sys2Proof.Machine.execFmwClka2 lo s
  | .fmwClkb v => Sys2Proof.Machine.execFmwClkb v s
  | .fmwTimer csm resetB resetA irqenB irqenA loadB loadA => Sys2Proof.Machine.execFmwTimer csm resetB resetA irqenB irqenA loadB loadA s
  | .fmwLfrq v => Sys2Proof.Machine.execFmwLfrq v s
  | .fmwDepth selPmd d => Sys2Proof.Machine.execFmwDepth selPmd d s
  | .fmwCtW ct w => Sys2Proof.Machine.execFmwCtW ct w s
  | .fmwRlFbCon c r l fb con => Sys2Proof.Machine.execFmwRlFbCon c r l fb con s
  | .fmwKc c kc => Sys2Proof.Machine.execFmwKc c kc s
  | .fmwKf c kf => Sys2Proof.Machine.execFmwKf c kf s
  | .fmwPmsAms c pms ams => Sys2Proof.Machine.execFmwPmsAms c pms ams s
  | .fmwDt1Mul sl c dt1 mul => Sys2Proof.Machine.execFmwDt1Mul sl c dt1 mul s
  | .fmwTl sl c tl => Sys2Proof.Machine.execFmwTl sl c tl s
  | .fmwKsAr sl c ks ar => Sys2Proof.Machine.execFmwKsAr sl c ks ar s
  | .fmwAmsD1r sl c amsEn d1r => Sys2Proof.Machine.execFmwAmsD1r sl c amsEn d1r s
  | .fmwDt2D2r sl c dt2 d2r => Sys2Proof.Machine.execFmwDt2D2r sl c dt2 d2r s
  | .fmwD1lRr sl c d1l rr => Sys2Proof.Machine.execFmwD1lRr sl c d1l rr s
  | .fmwUnassigned00 v => Sys2Proof.Machine.execFmwUnassigned00 v s
  | .fmwUnassigned02 v => Sys2Proof.Machine.execFmwUnassigned02 v s
  | .fmwUnassigned03 v => Sys2Proof.Machine.execFmwUnassigned03 v s
  | .fmwUnassigned04 v => Sys2Proof.Machine.execFmwUnassigned04 v s
  | .fmwUnassigned05 v => Sys2Proof.Machine.execFmwUnassigned05 v s
  | .fmwUnassigned06 v => Sys2Proof.Machine.execFmwUnassigned06 v s
  | .fmwUnassigned07 v => Sys2Proof.Machine.execFmwUnassigned07 v s
  | .fmwUnassigned09 v => Sys2Proof.Machine.execFmwUnassigned09 v s
  | .fmwUnassigned0A v => Sys2Proof.Machine.execFmwUnassigned0A v s
  | .fmwUnassigned0B v => Sys2Proof.Machine.execFmwUnassigned0B v s
  | .fmwUnassigned0C v => Sys2Proof.Machine.execFmwUnassigned0C v s
  | .fmwUnassigned0D v => Sys2Proof.Machine.execFmwUnassigned0D v s
  | .fmwUnassigned0E v => Sys2Proof.Machine.execFmwUnassigned0E v s
  | .fmwUnassigned13 v => Sys2Proof.Machine.execFmwUnassigned13 v s
  | .fmwUnassigned15 v => Sys2Proof.Machine.execFmwUnassigned15 v s
  | .fmwUnassigned16 v => Sys2Proof.Machine.execFmwUnassigned16 v s
  | .fmwUnassigned17 v => Sys2Proof.Machine.execFmwUnassigned17 v s
  | .fmwUnassigned1A v => Sys2Proof.Machine.execFmwUnassigned1A v s
  | .fmwUnassigned1C v => Sys2Proof.Machine.execFmwUnassigned1C v s
  | .fmwUnassigned1D v => Sys2Proof.Machine.execFmwUnassigned1D v s
  | .fmwUnassigned1E v => Sys2Proof.Machine.execFmwUnassigned1E v s
  | .fmwUnassigned1F v => Sys2Proof.Machine.execFmwUnassigned1F v s
  | .midiData st data => Sys2Proof.Machine.execMidiData st data s
  | .midiNoteOff st channel => Sys2Proof.Machine.execMidiNoteOff st channel s
  | .midiNoteOn st channel => Sys2Proof.Machine.execMidiNoteOn st channel s
  | .midiPolyPressure st channel => Sys2Proof.Machine.execMidiPolyPressure st channel s
  | .midiControlChange st channel => Sys2Proof.Machine.execMidiControlChange st channel s
  | .midiProgramChange st channel => Sys2Proof.Machine.execMidiProgramChange st channel s
  | .midiChannelPressure st channel => Sys2Proof.Machine.execMidiChannelPressure st channel s
  | .midiPitchBend st channel => Sys2Proof.Machine.execMidiPitchBend st channel s
  | .midiSysEx st => Sys2Proof.Machine.execMidiSysEx st s
  | .midiTimeCode st => Sys2Proof.Machine.execMidiTimeCode st s
  | .midiSongPosition st => Sys2Proof.Machine.execMidiSongPosition st s
  | .midiSongSelect st => Sys2Proof.Machine.execMidiSongSelect st s
  | .midiUndefinedF4 st => Sys2Proof.Machine.execMidiUndefinedF4 st s
  | .midiUndefinedF5 st => Sys2Proof.Machine.execMidiUndefinedF5 st s
  | .midiTuneRequest st => Sys2Proof.Machine.execMidiTuneRequest st s
  | .midiEndOfExclusive st => Sys2Proof.Machine.execMidiEndOfExclusive st s
  | .midiRealTime st rt => Sys2Proof.Machine.execMidiRealTime st rt s
  | .sample => Sys2Proof.Machine.execSample s
  | .samples n => Sys2Proof.Machine.execSamples n s
  | .tick => Sys2Proof.Machine.execTick s
  | .fmwPair a v => Sys2Proof.Machine.execFmwPair a v s
  | .flow st m => Sys2Proof.Machine.execFlow st m s
  | .midiFeed st b => Sys2Proof.Machine.execMidiFeed st b s
  | .reset => Sys2Proof.Machine.execReset s

end Sys2Proof.Machine
end

