-- ==== Sys2Proof/Machine/Step.lean ====
section
/-! DEFINITION. One step of the machine: the next operation of the interleaving arrives and runs as one atomic step
(spec/20_memory.md R76, R78). -/

namespace Sys2Proof.Machine

/-- The operation runs although the refusal mark is set: only RESET does (R374, R394). -/
def runsAfterRefusal : Instr → Bool
  | .reset => true
  | _ => false

/-- Run a decoded operation on a state: while the refusal mark is set nothing is claimed of the block (R374). -/
def runOperation (i : Instr) (s : State) : Host.Outcome State Fault Refusal :=
  match s.mark with
  | some r => if runsAfterRefusal i then exec i s else .refused (.afterRefusal r)
  | none => exec i s

/-- One step: the first pending operation is taken, decoded and run. With none pending the block stays as it is: it
only reacts to operations (R50, R410; log 1). -/
def step (s : State) : Host.Outcome State Fault Refusal :=
  match s.pending with
  | [] => .next s
  | a :: rest =>
    match decode a with
    | .error e => .refused (.undecodable e)
    | .ok i => runOperation i (s.setPending rest)

/-- The state in which the next operation to arrive is the one of a table word, and no other is pending. -/
def State.withFetchWord (s : State) (nbits w : Nat) : State :=
  s.setPending [tableAccess nbits w]

end Sys2Proof.Machine
end

