-- ==== Sys2Proof/Machine/ExecWith.lean ====
section
/-! DEFINITION. The machine for any value of the configuration fields of spec/00_scope.md R7: the meaning of an operation
and the step, with the record of the fields as an argument. `exec` and `step` are these at `params`, the defaults
(`exec_eq_execWith` and `step_eq_stepWith` in Sys2Proof/Laws/Step.lean; log 8). -/

namespace Sys2Proof.Machine

/-- FwFmWrite (R79) of a decoded register write: the pair selects the address, then writes. -/
def State.fmPair (P : Params) (s : State) (a : Byte) (r : FmReg) : State :=
  s.setFm ((s.fm.select a).write P r)

/-- The meaning of an operation for given configuration fields (R7). The operations of the last arm use none of them. -/
def execWith (P : Params) (i : Instr) (s : State) : Result :=
  match i with
  | .fwoutFmData v => .next (s.setFm (s.fm.write P (decodeFm s.fm.sel v)))
  | .fmwKon c m1 c1 m2 c2 => .next (s.fmPair P 0x08 (.kon c m1 c1 m2 c2))
  | .fmwKc c kc => .next (s.fmPair P (channelAddress 5 c) (.kc c kc))
  | .fmwKf c kf => .next (s.fmPair P (channelAddress 6 c) (.kf c kf))
  | .fmwDt1Mul sl c dt1 mul => .next (s.fmPair P (operatorAddress 2 sl c) (.dt1Mul sl c dt1 mul))
  | .fmwKsAr sl c ks ar => .next (s.fmPair P (operatorAddress 4 sl c) (.ksAr sl c ks ar))
  | .fmwAmsD1r sl c amsEn d1r => .next (s.fmPair P (operatorAddress 5 sl c) (.amsD1r sl c amsEn d1r))
  | .fmwDt2D2r sl c dt2 d2r => .next (s.fmPair P (operatorAddress 6 sl c) (.dt2D2r sl c dt2 d2r))
  | .fmwD1lRr sl c d1l rr => .next (s.fmPair P (operatorAddress 7 sl c) (.d1lRr sl c d1l rr))
  | .midiData st data => .next (s.midiFeedWith P.tables st (0#1 ++ data))
  | .midiNoteOff st channel => .next (s.midiFeedWith P.tables st (0x8#4 ++ channel))
  | .midiNoteOn st channel => .next (s.midiFeedWith P.tables st (0x9#4 ++ channel))
  | .midiPolyPressure st channel => .next (s.midiFeedWith P.tables st (0xA#4 ++ channel))
  | .midiControlChange st channel => .next (s.midiFeedWith P.tables st (0xB#4 ++ channel))
  | .midiProgramChange st channel => .next (s.midiFeedWith P.tables st (0xC#4 ++ channel))
  | .midiChannelPressure st channel => .next (s.midiFeedWith P.tables st (0xD#4 ++ channel))
  | .midiPitchBend st channel => .next (s.midiFeedWith P.tables st (0xE#4 ++ channel))
  | .midiSysEx st => .next (s.midiFeedWith P.tables st 0xF0)
  | .midiTimeCode st => .next (s.midiFeedWith P.tables st 0xF1)
  | .midiSongPosition st => .next (s.midiFeedWith P.tables st 0xF2)
  | .midiSongSelect st => .next (s.midiFeedWith P.tables st 0xF3)
  | .midiUndefinedF4 st => .next (s.midiFeedWith P.tables st 0xF4)
  | .midiUndefinedF5 st => .next (s.midiFeedWith P.tables st 0xF5)
  | .midiTuneRequest st => .next (s.midiFeedWith P.tables st 0xF6)
  | .midiEndOfExclusive st => .next (s.midiFeedWith P.tables st 0xF7)
  | .midiRealTime st rt => .next (s.midiFeedWith P.tables st (0x1F#5 ++ rt))
  | .sample => .next (s.advanceSample P)
  | .samples n => .next (State.advanceSamples P n s)
  | .tick => .next (s.pitTickWith P.tickMode)
  | .fmwPair a v => .next (s.fmPair P a (decodeFm a v))
  | .midiFeed st b => .next (s.midiFeedWith P.tables st b)
  | .reset => .next (s.resetOp P)
  | .outPiuHPa .. | .outPiuHPb .. | .outPiuHPc .. | .outPiuHMode .. | .outPiuHModeBidir .. | .outPiuHBsr ..
  | .outPitCnt0 .. | .outPitCnt1 .. | .outPitCnt2 .. | .outPitLatch .. | .outPitControl .. | .outPitIgnored ..
  | .outNetTcr .. | .outNetTsr .. | .inPiuHPa | .inPiuHPb | .inPiuHPc | .inPiuHMode | .inPitCnt0 | .inPitCnt1
  | .inPitCnt2 | .inPitCmd | .inNetTcr .. | .inNetTsr .. | .fwoutPa .. | .fwoutPb .. | .fwoutPc .. | .fwoutMode ..
  | .fwoutModeBidir .. | .fwoutBsr .. | .fwoutFmSel .. | .fwinPa | .fwinPb | .fwinPc | .fwinMode | .fwinFmSel
  | .fwinFmData | .fmwTest .. | .fmwNoise .. | .fmwClka1 .. | .fmwClka2 .. | .fmwClkb .. | .fmwTimer .. | .fmwLfrq ..
  | .fmwDepth .. | .fmwCtW .. | .fmwRlFbCon .. | .fmwPmsAms .. | .fmwTl .. | .fmwUnassigned00 ..
  | .fmwUnassigned02 .. | .fmwUnassigned03 .. | .fmwUnassigned04 .. | .fmwUnassigned05 .. | .fmwUnassigned06 ..
  | .fmwUnassigned07 .. | .fmwUnassigned09 .. | .fmwUnassigned0A .. | .fmwUnassigned0B .. | .fmwUnassigned0C ..
  | .fmwUnassigned0D .. | .fmwUnassigned0E .. | .fmwUnassigned13 .. | .fmwUnassigned15 .. | .fmwUnassigned16 ..
  | .fmwUnassigned17 .. | .fmwUnassigned1A .. | .fmwUnassigned1C .. | .fmwUnassigned1D .. | .fmwUnassigned1E ..
  | .fmwUnassigned1F .. | .flow .. => exec i s

/-- A decoded operation for given configuration fields, while the refusal mark allows it (R374). -/
def runOperationWith (P : Params) (i : Instr) (s : State) : Result :=
  match s.mark with
  | some r => if runsAfterRefusal i then execWith P i s else .refused (.afterRefusal r)
  | none => execWith P i s

/-- One step for given configuration fields (R7, R76, R78): `step` with `execWith P` in the place of `exec`. -/
def stepWith (P : Params) (s : State) : Result :=
  match s.pending with
  | [] => .next s
  | a :: rest =>
    match decode a with
    | .error e => .refused (.undecodable e)
    | .ok i => runOperationWith P i (s.setPending rest)

end Sys2Proof.Machine
end

