-- ==== Sys2Proof/Safety.lean ====
section
/-! DEFINITION. The terms claims about the block are made in: the invariants of its state (spec/10_state.md R25,
spec/40_fm_registers.md R158 and the ranges and levels the rules give), what an operation's agent may reach
(spec/20_memory.md R72), and the frames of the units. What depends on a configuration field of R7 takes the record of
them, or says that it is at their defaults. -/

namespace Sys2Proof.Machine

/-! ### The FM engine -/

/-- The derived envelope fields of an operator are what R156 computes from its registers and its channel's key code. -/
def EnvelopeDerived (P : Params) (kc : BitVec 7) (o : Operator) : Prop :=
  o.ksr = kc.toNat >>> (5 - o.ks.toNat)
    ∧ o.tlAtt = o.tl.toNat <<< 3
    ∧ o.d1lAtt = (if o.d1l = 15 then 992 else 32 * o.d1l.toNat)
    ∧ o.rateAr = attackRate P (rateBase o.ar + o.ksr)
    ∧ o.rateD1r = slowRate P (rateBase o.d1r + o.ksr)
    ∧ o.rateD2r = slowRate P (rateBase o.d2r + o.ksr)
    ∧ o.rateRr = slowRate P (34 + 4 * o.rr.toNat + o.ksr)

/-- The frequency count of an operator is what R155 computes. -/
def FreqDerived (P : Params) (ch : Channel) (o : Operator) : Prop :=
  o.freq = P.phaseInc ch.kc ch.kf 0 o.dt1 o.dt2 o.mul

/-- Every derived field of the engine equals its recomputation (R158). -/
def Fm.DerivedSound (P : Params) (fm : Fm) : Prop :=
  ∀ c, (fm.chan c).kci = P.kci (fm.chan c).kc (fm.chan c).kf
    ∧ ∀ s, FreqDerived P (fm.chan c) (fm.op c s) ∧ EnvelopeDerived P (fm.chan c).kc (fm.op c s)

/-- An operator's envelope is sound: its level is in range, its sustain threshold is one R156 gives, DECAY1 is left by
the time the level reaches the greatest threshold, and an operator with no key-on source is not in ATTACK (R25). That a
step keeps the first bound rests on the default `EG_INC` (log 8). -/
def Operator.EnvelopeSound (o : Operator) : Prop :=
  o.att ≤ 1023 ∧ o.d1lAtt ≤ 992 ∧ (o.eg = .decay1 → o.att < 992) ∧ (o.key = 0 → o.eg ≠ .attack)

/-- Every operator's envelope is sound (R25). -/
def Fm.EnvelopeSound (fm : Fm) : Prop :=
  ∀ c s, (fm.op c s).EnvelopeSound

/-- The chip-wide integers are in the ranges R20 and R24 give, a running timer has a count, the request is the OR of
the flags (R222), and TEST bit 1 holds the LFO phase at 0 (R172). -/
def Fm.RangesSound (fm : Fm) : Prop :=
  fm.egDiv ≤ 2 ∧ fm.lfa ≤ 254 ∧ (-127 ≤ fm.lfp ∧ fm.lfp ≤ 127)
    ∧ fm.taCnt ≤ 1024 ∧ fm.tbCnt ≤ 4096 ∧ (fm.loadA = true → 1 ≤ fm.taCnt) ∧ (fm.loadB = true → 1 ≤ fm.tbCnt)
    ∧ fm.csmReq ≤ 2
    ∧ (-32768 ≤ fm.outL ∧ fm.outL ≤ 32767) ∧ (-32768 ≤ fm.outR ∧ fm.outR ≤ 32767)
    ∧ fm.irq = (fm.flagA || fm.flagB)
    ∧ (fm.test.getLsbD 1 = true → fm.lfoPhase = 0)

/-- A write moved `fm` to `fm'` in channel `c` alone, with the select latch at `a` (R79). -/
def ChannelFrame (fm fm' : Fm) (a : Byte) (c : BitVec 3) : Prop :=
  fm' = { fm with sel := a, chans := fm'.chans } ∧ ∀ c', c' ≠ c → fm'.chan c' = fm.chan c'

/-- A write moved `fm` to `fm'` in operator slot `s` of channel `c` alone, with the select latch at `a` (R79). -/
def OperatorFrame (fm fm' : Fm) (a : Byte) (c : BitVec 3) (s : BitVec 2) : Prop :=
  ChannelFrame fm fm' a c
    ∧ fm'.chan c = { fm.chan c with ops := (fm'.chan c).ops }
    ∧ ∀ s', s' ≠ s → fm'.op c s' = fm.op c s'

/-- `o'` is `o` with no more than its derived fields (those of R155 and R156) changed. -/
def Operator.SameRegisters (o o' : Operator) : Prop :=
  o' = { o with freq := o'.freq, ksr := o'.ksr, tlAtt := o'.tlAtt, d1lAtt := o'.d1lAtt, rateAr := o'.rateAr,
                rateD1r := o'.rateD1r, rateD2r := o'.rateD2r, rateRr := o'.rateRr }

/-- `EG_INC[o.sel_X][(fm.eg_cnt >> o.sh_X) & 7]` (R154, R183), with the default `EG_INC`. -/
def incrementAt (cnt : BitVec 32) (r : EgRate) : Nat :=
  egInc r.sel ((cnt.toNat >>> r.sh) &&& 7)

/-- The level an attack step reaches before its test against 0 (R154, R185); the arithmetic shift is a floor division
(R8). -/
def attackTarget (att inc : Nat) : Int :=
  (att : Int) + ((-(att : Int) - 1) * (inc : Int)) / 16

/-- What `KEY_ON(o, src)` makes of an operator (R154), with the default `KEYON_STEP` and `EG_INC`. -/
def KeyOnResult (cnt : BitVec 32) (src : BitVec 2) (o o' : Operator) : Prop :=
  if o.key = 0 then
    o' = { o with
           phase := 0
           att := (max 0 (attackTarget o.att (incrementAt cnt o.rateAr))).toNat
           eg := if attackTarget o.att (incrementAt cnt o.rateAr) ≤ 0 then .decay1 else .attack
           key := src }
  else o' = { o with key := o.key ||| src }

/-- What `KEY_OFF(o, src)` makes of an operator (R157). -/
def KeyOffResult (src : BitVec 2) (o o' : Operator) : Prop :=
  if o.key = 0 then o' = o
  else
    o' = { o with
           key := o.key &&& ~~~src
           eg := if o.key &&& ~~~src = 0 ∧ (o.eg = .decay2 ∨ o.eg = .decay1 ∨ o.eg = .attack) then .release else o.eg }

/-- The rate is due at an EG tick (R183). -/
def DueAt (cnt : BitVec 32) (r : EgRate) : Prop :=
  cnt.toNat &&& (2 ^ r.sh - 1) = 0

/-- The level moves from `a` to `b` at an EG tick: by the increment when the rate is due, else not (R186 to R188). -/
def RisesTo (cnt : BitVec 32) (r : EgRate) (a b : Nat) : Prop :=
  (DueAt cnt r → b = a + incrementAt cnt r) ∧ (¬ DueAt cnt r → b = a)

/-- What an EG tick makes of an operator, by its envelope state (R185 to R189), with the default `EG_INC`. -/
def EnvelopeStepResult (cnt : BitVec 32) (o o' : Operator) : Prop :=
  match o.eg with
  | .attack =>
    ∃ a : Int, (DueAt cnt o.rateAr → a = attackTarget o.att (incrementAt cnt o.rateAr))
      ∧ (¬ DueAt cnt o.rateAr → a = o.att)
      ∧ o' = { o with att := (max 0 a).toNat, eg := if a ≤ 0 then .decay1 else .attack }
  | .decay1 =>
    ∃ a, RisesTo cnt o.rateD1r o.att a ∧ o' = { o with att := a, eg := if o.d1lAtt ≤ a then .decay2 else .decay1 }
  | .decay2 =>
    ∃ a, RisesTo cnt o.rateD2r o.att a ∧ o' = { o with att := min a 1023, eg := if 1023 ≤ a then .off else .decay2 }
  | .release =>
    ∃ a, RisesTo cnt o.rateRr o.att a ∧ o' = { o with att := min a 1023, eg := if 1023 ≤ a then .off else .release }
  | .off => o' = o

/-! ### The interval timer -/

/-- Every counter has a byte order (`rw` = 0 is never stored, R242), and the output line is high between pulses
(R247). -/
def Pit.Sound (p : Pit) : Prop :=
  (∀ n, (p.get n).rw ≠ 0) ∧ p.out0 = true

/-- The row that loads a counter (R242). -/
def CounterId.writeInstr (n : CounterId) (v : Byte) : Instr :=
  match n with
  | .cnt0 => .outPitCnt0 v
  | .cnt1 => .outPitCnt1 v
  | .cnt2 => .outPitCnt2 v

/-- The row that reads a counter back (R245). -/
def CounterId.readInstr : CounterId → Instr
  | .cnt0 => .inPitCnt0
  | .cnt1 => .inPitCnt1
  | .cnt2 => .inPitCnt2

/-- The `sc` field that selects a counter (R105). -/
def CounterId.sc : CounterId → BitVec 2
  | .cnt0 => 0
  | .cnt1 => 1
  | .cnt2 => 2

/-! ### The parallel interface -/

/-- The handshake of a pair of units is at rest (R290): the stored samples are the signals of R271 and the requests
are the levels of R291. -/
def HandshakeAtRest (h f : Piu) : Prop :=
  (f.stbAIn = strobe h f .f .a ∧ h.ackAIn = acknowledge h f .h .a
    ∧ h.stbBIn = strobe h f .h .b ∧ f.ackBIn = acknowledge h f .f .b)
  ∧ (∀ x, h.intr x = intrOf h f .h h x ∧ f.intr x = intrOf h f .f f x)

/-- The pair is at rest, the lines that are wired to nothing are 0 (R271), and neither unit is bidirectional (R277). -/
def HandshakeSettled (h f : Piu) : Prop :=
  HandshakeAtRest h f
    ∧ (h.stbAIn = false ∧ f.ackAIn = false ∧ f.stbBIn = false ∧ h.ackBIn = false)
    ∧ ((h.ma = 0 ∨ h.ma = 1) ∧ (f.ma = 0 ∨ f.ma = 1))

/-- Port C bit n is taken by a strobed group, by the table of R116. -/
def Piu.HandshakeBit (p : Piu) (n : Nat) : Prop :=
  (p.ma = 1 ∧ p.dirA = false ∧ (n = 7 ∨ n = 6 ∨ n = 3))
    ∨ (p.ma = 1 ∧ p.dirA = true ∧ (n = 4 ∨ n = 5 ∨ n = 3))
    ∨ (p.mb = true ∧ (n = 0 ∨ n = 1 ∨ n = 2))

/-- What programs set in a unit and the handshake never changes: modes, directions, output latches, interrupt
enables. -/
def Piu.SameProgrammed (p p' : Piu) : Prop :=
  p'.ma = p.ma ∧ p'.mb = p.mb ∧ p'.dirA = p.dirA ∧ p'.dirB = p.dirB ∧ p'.dirCh = p.dirCh ∧ p'.dirCl = p.dirCl
    ∧ p'.outA = p.outA ∧ p'.outB = p.outB ∧ p'.outC = p.outC ∧ p'.inteA = p.inteA ∧ p'.inteB = p.inteB

/-- The row of each unit that writes a data port (R279). -/
def portWriteInstr (q : PiuId) (x : Port) (v : Byte) : Instr :=
  match q, x with
  | .h, .a => .outPiuHPa v
  | .h, .b => .outPiuHPb v
  | .f, .a => .fwoutPa v
  | .f, .b => .fwoutPb v

/-- The row of each unit that reads a data port (R280, R281). -/
def portReadInstr (q : PiuId) (x : Port) : Instr :=
  match q, x with
  | .h, .a => .inPiuHPa
  | .h, .b => .inPiuHPb
  | .f, .a => .fwinPa
  | .f, .b => .fwinPb

/-- The row of each unit that writes a mode word (R276). -/
def modeInstr (q : PiuId) (m : ModeWord) : Instr :=
  match q with
  | .h => .outPiuHMode m
  | .f => .fwoutMode m

/-- The row of each unit that sets or resets a bit of port C (R278). -/
def bitSetInstr (q : PiuId) (n : BitVec 3) (b : Bool) : Instr :=
  match q with
  | .h => .outPiuHBsr n b
  | .f => .fwoutBsr n b

/-- The row of each unit that writes port C (R284). -/
def portCWriteInstr (q : PiuId) (v : Byte) : Instr :=
  match q with
  | .h => .outPiuHPc v
  | .f => .fwoutPc v

/-- The row of each unit that reads port C (R283). -/
def portCReadInstr (q : PiuId) : Instr :=
  match q with
  | .h => .inPiuHPc
  | .f => .fwinPc

/-- An operation on the parallel interface reached the two units and the network's levels alone: no other unit, not TCR,
and only callbacks were output (R290, R320). -/
def PiuFrame (s t : State) : Prop :=
  t = { s with piuH := t.piuH, piuF := t.piuF, net := t.net, trace := t.trace }
    ∧ t.net.tcr = s.net.tcr
    ∧ ∃ es, t.trace = s.trace ++ es ∧ ∀ e ∈ es, ∃ l b, e = .callback l b

/-! ### The network -/

/-- The network is at rest: its levels are those of R323 to R325, the last reported levels are the lines' levels with Z
reported as 0 (R326), the timer output was sampled, and TC holds the flip-flop at 0 (R322). -/
def State.NetSettled (s : State) : Prop :=
  s.net.out0Seen = s.pit.out0
    ∧ (s.net.tcr.getLsbD 1 = true → s.net.ts = false)
    ∧ s.net.card = (s.net.ts || s.piuH.intrA || s.piuH.intrB)
    ∧ s.net.host = (if s.net.tcr.getLsbD 6 then (if s.net.card && s.net.tcr.getLsbD 7 then .high else .low) else .z)
    ∧ s.net.fw = (s.piuF.intrA || s.piuF.intrB)
    ∧ s.net.hostSeen = (s.net.host == .high)
    ∧ s.net.fwSeen = s.net.fw

/-! ### The classifiers -/

/-- The accumulator's length in a state of the default tables (R351), when the state is not System-Exclusive. -/
def accLength (q : Nat) : Nat :=
  if q = 0 then 0
  else if q = 2 ∨ q = 5 ∨ q = 8 ∨ q = 11 ∨ q = 14 ∨ q = 24 then 2
  else 1

/-- The deliveries of a message for a flow row whose route bits are all 1 (R345, R355): SYNTH, MIDIOUT, HOST. -/
def forwarded (st : Stream) (flow : BitVec 3) (msg : List Byte) : List Event :=
  (if flow.getLsbD 0 then [.emit .synth st msg] else [])
    ++ (if flow.getLsbD 1 then [.emit .midiOut st msg] else [])
    ++ (if flow.getLsbD 2 then [.emit .host st msg] else [])

/-- A framed message: a status byte, then data bytes. -/
def FramedMessage (msg : List Byte) : Prop :=
  ∃ b ds, msg = b :: ds ∧ isStatus b = true ∧ ∀ d ∈ ds, isStatus d = false

/-- A classifier of the default tables is sound: its state is one the tables reach, its accumulator is empty or a
message in progress, as long as its state says (R347, R351). -/
def Mpc.Sound (m : Mpc) : Prop :=
  m.state < 32
    ∧ (m.acc = [] ∨ FramedMessage m.acc)
    ∧ (if m.state = 20 then m.acc.length ≤ 1 else m.acc.length = accLength m.state)

/-! ### Agents -/

/-- Who acts (R50); `outside` is the reset of R390. -/
inductive Agent where
  | host
  | firmware
  | audioPull
  | timerClock
  | midiSource (s : Stream)
  | outside
deriving DecidableEq, Repr

/-- The agent an operation belongs to (R50, R350). -/
def agentOf : Instr → Agent
  | .outPiuHPa _ => .host
  | .outPiuHPb _ => .host
  | .outPiuHPc _ => .host
  | .outPiuHMode _ => .host
  | .outPiuHModeBidir _ => .host
  | .outPiuHBsr _ _ => .host
  | .outPitCnt0 _ => .host
  | .outPitCnt1 _ => .host
  | .outPitCnt2 _ => .host
  | .outPitLatch _ => .host
  | .outPitControl _ _ _ _ => .host
  | .outPitIgnored _ => .host
  | .outNetTcr _ _ => .host
  | .outNetTsr _ _ => .host
  | .inPiuHPa => .host
  | .inPiuHPb => .host
  | .inPiuHPc => .host
  | .inPiuHMode => .host
  | .inPitCnt0 => .host
  | .inPitCnt1 => .host
  | .inPitCnt2 => .host
  | .inPitCmd => .host
  | .inNetTcr _ => .host
  | .inNetTsr _ => .host
  | .fwoutPa _ => .firmware
  | .fwoutPb _ => .firmware
  | .fwoutPc _ => .firmware
  | .fwoutMode _ => .firmware
  | .fwoutModeBidir _ => .firmware
  | .fwoutBsr _ _ => .firmware
  | .fwoutFmSel _ => .firmware
  | .fwoutFmData _ => .firmware
  | .fwinPa => .firmware
  | .fwinPb => .firmware
  | .fwinPc => .firmware
  | .fwinMode => .firmware
  | .fwinFmSel => .firmware
  | .fwinFmData => .firmware
  | .fmwTest _ => .firmware
  | .fmwKon _ _ _ _ _ => .firmware
  | .fmwNoise _ _ => .firmware
  | .fmwClka1 _ => .firmware
  | .fmwClka2 _ => .firmware
  | .fmwClkb _ => .firmware
  | .fmwTimer _ _ _ _ _ _ _ => .firmware
  | .fmwLfrq _ => .firmware
  | .fmwDepth _ _ => .firmware
  | .fmwCtW _ _ => .firmware
  | .fmwRlFbCon _ _ _ _ _ => .firmware
  | .fmwKc _ _ => .firmware
  | .fmwKf _ _ => .firmware
  | .fmwPmsAms _ _ _ => .firmware
  | .fmwDt1Mul _ _ _ _ => .firmware
  | .fmwTl _ _ _ => .firmware
  | .fmwKsAr _ _ _ _ => .firmware
  | .fmwAmsD1r _ _ _ _ => .firmware
  | .fmwDt2D2r _ _ _ _ => .firmware
  | .fmwD1lRr _ _ _ _ => .firmware
  | .fmwUnassigned00 _ => .firmware
  | .fmwUnassigned02 _ => .firmware
  | .fmwUnassigned03 _ => .firmware
  | .fmwUnassigned04 _ => .firmware
  | .fmwUnassigned05 _ => .firmware
  | .fmwUnassigned06 _ => .firmware
  | .fmwUnassigned07 _ => .firmware
  | .fmwUnassigned09 _ => .firmware
  | .fmwUnassigned0A _ => .firmware
  | .fmwUnassigned0B _ => .firmware
  | .fmwUnassigned0C _ => .firmware
  | .fmwUnassigned0D _ => .firmware
  | .fmwUnassigned0E _ => .firmware
  | .fmwUnassigned13 _ => .firmware
  | .fmwUnassigned15 _ => .firmware
  | .fmwUnassigned16 _ => .firmware
  | .fmwUnassigned17 _ => .firmware
  | .fmwUnassigned1A _ => .firmware
  | .fmwUnassigned1C _ => .firmware
  | .fmwUnassigned1D _ => .firmware
  | .fmwUnassigned1E _ => .firmware
  | .fmwUnassigned1F _ => .firmware
  | .midiData st _ => .midiSource st
  | .midiNoteOff st _ => .midiSource st
  | .midiNoteOn st _ => .midiSource st
  | .midiPolyPressure st _ => .midiSource st
  | .midiControlChange st _ => .midiSource st
  | .midiProgramChange st _ => .midiSource st
  | .midiChannelPressure st _ => .midiSource st
  | .midiPitchBend st _ => .midiSource st
  | .midiSysEx st => .midiSource st
  | .midiTimeCode st => .midiSource st
  | .midiSongPosition st => .midiSource st
  | .midiSongSelect st => .midiSource st
  | .midiUndefinedF4 st => .midiSource st
  | .midiUndefinedF5 st => .midiSource st
  | .midiTuneRequest st => .midiSource st
  | .midiEndOfExclusive st => .midiSource st
  | .midiRealTime st _ => .midiSource st
  | .sample => .audioPull
  | .samples _ => .audioPull
  | .tick => .timerClock
  | .fmwPair _ _ => .firmware
  | .flow _ _ => .firmware
  | .midiFeed st _ => .midiSource st
  | .reset => .outside

/-- What an agent's operation may reach (R50, R72, R361): of the other units nothing but what the handshake and the
network propagate. -/
def Reaches (a : Agent) (s t : State) : Prop :=
  match a with
  | .host =>
    t.fm = s.fm ∧ t.mpcMidiIn = s.mpcMidiIn ∧ t.mpcHost = s.mpcHost ∧ s.piuF.SameProgrammed t.piuF
  | .firmware =>
    t.pit = s.pit ∧ t.net.tcr = s.net.tcr ∧ s.piuH.SameProgrammed t.piuH
      ∧ ∀ st, t.mpc st = { s.mpc st with flow := (t.mpc st).flow }
  | .audioPull => t = { s with fm := t.fm, trace := t.trace }
  | .timerClock => t = { s with pit := t.pit, net := t.net, trace := t.trace } ∧ t.net.tcr = s.net.tcr
  | .midiSource st =>
    t = State.setMpc { s with trace := t.trace } st (t.mpc st) ∧ (t.mpc st).flow = (s.mpc st).flow
  | .outside => t = { State.reset with pending := s.pending, trace := s.trace, draws := s.draws }

/-- The state after a run of operations given one by one, or the first stop. -/
def runOperations : List Instr → State → Host.Outcome State Fault Refusal
  | [], s => .next s
  | i :: is, s =>
    match runOperation i s with
    | .next t => runOperations is t
    | .fault f => .fault f
    | .refused r => .refused r

end Sys2Proof.Machine
end

