-- ==== Sys2Proof/Certificates/Slice0/Obligations.lean ====
section
/-! DEFINITION. The statements about the block, one `Prop` each. `exec` is the meaning of one operation; a run goes
through `step`, which tests the refusal mark first (R374), so a statement about `exec` claims nothing of a run after the
mark. Where a clause rests on a choice of the model, its docstring names the entry of the assumption log. -/

section Slice0

open Sys2Proof Sys2Proof.Machine

/-! ### Encoding -/

/-- Every well-formed operation decodes back from its own record, with every operand at every value the encoding
admits. The record's path is the wire the operation arrives on (log 1). -/
def Obligations.EncodedInstructionsDecodeBack : Prop :=
  ∀ i : Instr, i.wellFormed = true → decode (encode i) = .ok i

/-- A record whose word fits its path is a well-formed operation (R370, R376); one whose word does not is none (U9,
log 22). -/
def Obligations.FittingRecordsDecode : Prop :=
  ∀ a : Access, (a.fits = true → ∃ i, decode a = .ok i ∧ i.wellFormed = true)
    ∧ (a.fits = false → ∃ e, decode a = .error e)

/-- Words written out from the encoding tables stand for the operations they encode. -/
def Obligations.SampleWordsDecode : Prop :=
  decode ⟨.hostWrite, 0x05A⟩ = .ok (.outPiuHPa 0x5A)
    ∧ decode ⟨.hostWrite, 0b0011_1010_0110⟩ = .ok (.outPiuHMode ⟨1, false, false, true, true, false⟩)
    ∧ decode ⟨.hostWrite, 0b0111_0111_0101⟩ = .ok (.outPitControl 1 3 2 true)
    ∧ decode ⟨.hostRead, 0b1110⟩ = .ok (.inNetTsr 2)
    ∧ decode ⟨.fwWrite .mode, 0b0000_1001⟩ = .ok (.fwoutBsr 4 true)
    ∧ decode ⟨.fwRead .fmData, 0⟩ = .ok .fwinFmData
    ∧ decode ⟨.fmWrite, 0b1001_1010_1101_0101⟩ = .ok (.fmwKsAr 3 2 3 0x15)
    ∧ decode ⟨.midi .host, 0xC5⟩ = .ok (.midiProgramChange .host 5)

/-- The FM register map (R95 to R97): for every address and byte, which register is written and with which fields. -/
def Obligations.FmRegisterMap : Prop :=
  (∀ v : Byte,
    decodeFm 0x01 v = .test v
      ∧ decodeFm 0x08 v = .kon (v.extractLsb 2 0) (v.getLsbD 3) (v.getLsbD 4) (v.getLsbD 5) (v.getLsbD 6)
      ∧ decodeFm 0x0F v = .noise (v.getLsbD 7) (v.extractLsb 4 0)
      ∧ decodeFm 0x10 v = .clka1 v
      ∧ decodeFm 0x11 v = .clka2 (v.extractLsb 1 0)
      ∧ decodeFm 0x12 v = .clkb v
      ∧ decodeFm 0x14 v = .timer (v.getLsbD 7) (v.getLsbD 5) (v.getLsbD 4) (v.getLsbD 3) (v.getLsbD 2) (v.getLsbD 1)
          (v.getLsbD 0)
      ∧ decodeFm 0x18 v = .lfrq v
      ∧ decodeFm 0x19 v = .depth (v.getLsbD 7) (v.extractLsb 6 0)
      ∧ decodeFm 0x1B v = .ctW (v.extractLsb 7 6) (v.extractLsb 1 0))
  ∧ (∀ (c : BitVec 3) (v : Byte),
    decodeFm (0x20 + c.setWidth 8) v
        = .rlFbCon c (v.getLsbD 7) (v.getLsbD 6) (v.extractLsb 5 3) (v.extractLsb 2 0)
      ∧ decodeFm (0x28 + c.setWidth 8) v = .kc c (v.extractLsb 6 0)
      ∧ decodeFm (0x30 + c.setWidth 8) v = .kf c (v.extractLsb 7 2)
      ∧ decodeFm (0x38 + c.setWidth 8) v = .pmsAms c (v.extractLsb 6 4) (v.extractLsb 1 0))
  ∧ (∀ (s : BitVec 2) (c : BitVec 3) (v : Byte),
    decodeFm (0x40 + 8 * s.setWidth 8 + c.setWidth 8) v = .dt1Mul s c (v.extractLsb 6 4) (v.extractLsb 3 0)
      ∧ decodeFm (0x60 + 8 * s.setWidth 8 + c.setWidth 8) v = .tl s c (v.extractLsb 6 0)
      ∧ decodeFm (0x80 + 8 * s.setWidth 8 + c.setWidth 8) v = .ksAr s c (v.extractLsb 7 6) (v.extractLsb 4 0)
      ∧ decodeFm (0xA0 + 8 * s.setWidth 8 + c.setWidth 8) v = .amsD1r s c (v.getLsbD 7) (v.extractLsb 4 0)
      ∧ decodeFm (0xC0 + 8 * s.setWidth 8 + c.setWidth 8) v = .dt2D2r s c (v.extractLsb 7 6) (v.extractLsb 4 0)
      ∧ decodeFm (0xE0 + 8 * s.setWidth 8 + c.setWidth 8) v = .d1lRr s c (v.extractLsb 7 4) (v.extractLsb 3 0))
  ∧ (∀ a v : Byte, decodeFm a v = .unassigned ↔
      a ∈ ([0x00, 0x02, 0x03, 0x04, 0x05, 0x06, 0x07, 0x09, 0x0A, 0x0B, 0x0C, 0x0D, 0x0E, 0x13, 0x15, 0x16, 0x17,
        0x1A, 0x1C, 0x1D, 0x1E, 0x1F] : List Byte))

/-! ### The step -/

/-- When the next pending record decodes and the mark is not set, the step is that operation on the state without the
record (R76, R78; log 1). -/
def Obligations.StepRunsDecodedInstruction : Prop :=
  ∀ (s : State) (a : Access) (rest : List Access) (i : Instr),
    s.pending = a :: rest → decode a = .ok i → s.mark = none →
      step s = exec i { s with pending := rest }

/-- The steps that run no operation: with nothing pending the state stays; a record that is no operation is refused by
name; while the mark is set every operation but RESET is refused, and RESET runs (R374, R394; log 1, 6, 22). -/
def Obligations.StopsAndIdleSteps : Prop :=
  (∀ s : State, s.pending = [] → step s = .next s)
  ∧ (∀ (s : State) (a : Access) (rest : List Access) (e : DecodeError),
      s.pending = a :: rest → decode a = .error e → step s = .refused (.undecodable e))
  ∧ (∀ (s : State) (a : Access) (rest : List Access) (i : Instr) (r : RefuseReason),
      s.pending = a :: rest → decode a = .ok i → s.mark = some r →
        (i ≠ .reset → step s = .refused (.afterRefusal r))
          ∧ (i = .reset → ∃ t, step s = .next t ∧ t.mark = none))

/-- No operation faults or is refused a meaning, every operand value is legal, and the step never faults (R370). -/
def Obligations.EveryOperationCompletes : Prop :=
  (∀ (i : Instr) (s : State), ∃ t, exec i s = .next t)
  ∧ (∀ a : Access, a.fits = true → ∃ i, decode a = .ok i)
  ∧ (∀ (s : State) (f : Fault), step s ≠ .fault f)

/-! ### What every step keeps -/

/-- R25: every operator's level stays in range and no operator is in ATTACK with no key-on source; and an OFF operator's
envelope does not change at an EG tick. That the level stays in range rests on the default `EG_INC`, the model's choice
(log 8): no entry of it is above 16, so DECAY1, which the bounds of `EnvelopeSound` end below 992, cannot pass 1023. With
another `EG_INC` of R7 it could. -/
def Obligations.EnvelopeInvariantKept : Prop :=
  (∀ s t : State, s.fm.EnvelopeSound → step s = .next t → t.fm.EnvelopeSound)
  ∧ (∀ (cnt : BitVec 32) (o : Operator), o.eg = .off → o.egStep params cnt = o)

/-- R158: every derived field equals its recomputation at reset, and at the end of every operation from a state in which
it did. The recomputation is that of the default configuration fields (log 7, 8), at reset by log 24;
`AnyParametersKeepInvariants` says the same of any others. -/
def Obligations.DerivedFieldsKept : Prop :=
  State.reset.fm.DerivedSound params
  ∧ ∀ s t : State, s.fm.DerivedSound params → step s = .next t → t.fm.DerivedSound params

/-- The chip-wide integers stay in the ranges of R20 and R24, the request is the OR of the flags (R222), and TEST bit 1
holds the LFO phase at 0 (R172). -/
def Obligations.RangesKept : Prop :=
  ∀ s t : State, s.fm.RangesSound → step s = .next t → t.fm.RangesSound

/-- The handshake stays at its fixed point and the network at its levels after every step (R290, R291, R320 to R326). -/
def Obligations.HandshakeAndNetworkStaySettled : Prop :=
  ∀ s t : State, HandshakeSettled s.piuH s.piuF → s.NetSettled → step s = .next t →
    HandshakeSettled t.piuH t.piuF ∧ t.NetSettled

/-- A counter's `rw` is never 0, and the timer output is high between operations (R240, R242, R247). That it is high
rests on the default PULSE (log 10). -/
def Obligations.TimerInvariantKept : Prop :=
  ∀ s t : State, s.pit.Sound → step s = .next t → t.pit.Sound

/-- The classifiers stay sound for the default tables, and every message a step emits is a status byte followed by data
bytes, at most three bytes in all (R343, R347, R351). -/
def Obligations.ClassifiersStaySound : Prop :=
  ∀ s t : State, s.mpcMidiIn.Sound → s.mpcHost.Sound → step s = .next t →
    t.mpcMidiIn.Sound ∧ t.mpcHost.Sound
      ∧ ∃ es, t.trace = s.trace ++ es
          ∧ ∀ d st msg, Event.emit d st msg ∈ es → FramedMessage msg ∧ msg.length ≤ 3

/-- A step takes one pending record and appends to the outputs; no output is ever withdrawn (R10, R380; the fields are
the model's, log 1, 4, 5). -/
def Obligations.TraceOnlyGrows : Prop :=
  ∀ s t : State, step s = .next t →
    t.pending = s.pending.tail ∧ s.draws ≤ t.draws ∧ ∃ es, t.trace = s.trace ++ es ∧ (s.pending = [] → es = [])

/-- An agent's operation reaches its own registers alone; the other side of the parallel interface moves only by the
handshake, never in what its own programs set (R50, R72, R361). -/
def Obligations.AgentsReachOnlyTheirOwn : Prop :=
  ∀ (i : Instr) (s t : State), exec i s = .next t → Reaches (agentOf i) s t

/-- Every invariant above holds at reset; the derived fields by log 24, with the default configuration fields (log 7, 8). -/
def Obligations.ResetMeetsInvariants : Prop :=
  State.reset.fm.EnvelopeSound ∧ State.reset.fm.DerivedSound params ∧ State.reset.fm.RangesSound
    ∧ HandshakeSettled State.reset.piuH State.reset.piuF ∧ State.reset.NetSettled ∧ State.reset.pit.Sound
    ∧ State.reset.mpcMidiIn.Sound ∧ State.reset.mpcHost.Sound

/-- RESET, from every state, gives the reset values of R20 to R45 and R391, clears the mark and outputs nothing (R390,
R394, R328). `kci` and `freq` are not the reset value 0 of R21 and R23 but what R155 computes from the reset registers, as
R390 is read (log 24): `KCI(0, 0)`, 0 in the default, and the default `PHASE_INC` of zeros, an open value (log 7). That it
keeps the model's own fields is the model's (log 17). -/
def Obligations.ResetOperation : Prop :=
  ∀ s : State, ∃ t, exec .reset s = .next t
    ∧ t.mark = none ∧ t.trace = s.trace ∧ t.pending = s.pending ∧ t.draws = s.draws
    ∧ t.fm = { sel := 0, test := 0, egCnt := 0, egDiv := 0, lfrq := 0, amd := 0, pmd := 0, lfoWave := 0, ct := 0,
               lfoPhase := 0, lfoTimer := 0, lfoFrac := 0, lfa := 0, lfp := 0, ne := false, nfrq := 0, noiseRng := 0,
               noiseAcc := 0, ta := 0, tb := 0, csm := false, irqenA := false, irqenB := false, loadA := false,
               loadB := false, taCnt := 0, tbCnt := 0, flagA := false, flagB := false, csmReq := 0, outL := 0,
               outR := 0, irq := false, chans := t.fm.chans }
    ∧ (∀ c, t.fm.chan c = { rl := 0, fb := 0, con := 0, kc := 0, kf := 0, pms := 0, ams := 0, kci := 0,
                            fbPrev := 0, fbCur := 0, mem := 0, ops := (t.fm.chan c).ops })
    ∧ (∀ c sl, t.fm.op c sl = { phase := 0, freq := phaseInc 0 0 0 0 0 0, dt1 := 0, mul := 0, tl := 0, ks := 0,
                                ar := 0, amsEn := false, d1r := 0, dt2 := 0, d2r := 0, d1l := 0, rr := 0, eg := .off,
                                att := 1023, key := 0, ksr := 0, tlAtt := 0, d1lAtt := 0, rateAr := ⟨0, 18⟩,
                                rateD1r := ⟨0, 18⟩, rateD2r := ⟨0, 18⟩, rateRr := ⟨11, 2⟩ })
    ∧ (∀ n, t.pit.get n = { load := 0, run := 0, latch := 0, latched := false, rdHi := false, wrHi := false, rw := 3,
                            mode := 0, bcd := false })
    ∧ t.pit.out0 = true
    ∧ (∀ q, t.piu q = { ma := 0, mb := false, dirA := true, dirB := true, dirCh := true, dirCl := true, outA := 0,
                        outB := 0, outC := 0, inA := 0, inB := 0, obfA := false, obfB := false, ibfA := false,
                        ibfB := false, inteA := false, inteB := false, intrA := false, intrB := false,
                        stbAIn := false, stbBIn := false, ackAIn := false, ackBIn := false })
    ∧ t.net = { tcr := 0, ts := false, card := false, host := .z, fw := false, hostSeen := false, fwSeen := false,
                out0Seen := true }
    ∧ (∀ st, t.mpc st = { state := 0, acc := [], flow := 1 })

/-! ### FM registers -/

/-- FM_SEL, FM_DATA read and FM_SEL read (R130, R132). -/
def Obligations.FmSelectAndStatus : Prop :=
  ∀ (v : Byte) (s : State),
    exec (.fwoutFmSel v) s = .next { s with fm := { s.fm with sel := v } }
    ∧ exec .fwinFmData s
        = .next { s with trace := s.trace
                    ++ [.fwRead .fmData (0#1 ++ 0#5 ++ BitVec.ofBool s.fm.flagB ++ BitVec.ofBool s.fm.flagA)] }
    ∧ exec .fwinFmSel s
        = .next { s with draws := s.draws + 1, trace := s.trace ++ [.fwRead .fmSel (Config.draw s.draws)] }

/-- A data write does what the FMW row of the selected address does, and keeps the address selected; the pair does what
the row of its address does, and is the select write followed by the data write (R79, R131; log 3). -/
def Obligations.FmDataWritesSelectedRegister : Prop :=
  ∀ (a v : Byte) (s : State),
    (∃ t, exec (.fwoutFmData v) s = .next t ∧ t.fm.sel = s.fm.sel ∧ exec (decodeFmPairRow s.fm.sel v) s = .next t)
    ∧ (∃ t u, exec (.fmwPair a v) s = .next u ∧ exec (decodeFmPairRow a v) s = .next u
        ∧ exec (.fwoutFmSel a) s = .next t ∧ exec (.fwoutFmData v) t = .next u)

/-- A read of a write-only register returns any byte and changes nothing of the block (R90, R92, R123; log 5). -/
def Obligations.WriteOnlyReadsDraw : Prop :=
  ∀ s : State,
    exec .inPiuHMode s = .next { s with draws := s.draws + 1, trace := s.trace ++ [.portRead 3 (Config.draw s.draws)] }
    ∧ exec .inPitCmd s = .next { s with draws := s.draws + 1, trace := s.trace ++ [.portRead 7 (Config.draw s.draws)] }
    ∧ exec .fwinMode s
        = .next { s with draws := s.draws + 1, trace := s.trace ++ [.fwRead .mode (Config.draw s.draws)] }

/-- TEST, NOISE, CLKA1, CLKA2, CLKB, LFRQ, PMD/AMD and CT/W (R133, R135 to R138, R140 to R142): the fields each writes,
the select latch moved to its address by the pair (R79, R122; log 3), and nothing else. -/
def Obligations.FmControlWrites : Prop :=
  ∀ (s : State) (v : Byte) (ne b : Bool) (nfrq : BitVec 5) (lo ct w : BitVec 2) (d : BitVec 7),
    exec (.fmwTest v) s
      = .next { s with fm := { s.fm with sel := 0x01, test := v,
                                         lfoPhase := if v.getLsbD 1 = true then 0 else s.fm.lfoPhase } }
    ∧ exec (.fmwNoise ne nfrq) s = .next { s with fm := { s.fm with sel := 0x0F, ne := ne, nfrq := nfrq } }
    ∧ exec (.fmwClka1 v) s = .next { s with fm := { s.fm with sel := 0x10, ta := v ++ s.fm.ta.extractLsb 1 0 } }
    ∧ exec (.fmwClka2 lo) s = .next { s with fm := { s.fm with sel := 0x11, ta := s.fm.ta.extractLsb 9 2 ++ lo } }
    ∧ exec (.fmwClkb v) s = .next { s with fm := { s.fm with sel := 0x12, tb := v } }
    ∧ exec (.fmwLfrq v) s = .next { s with fm := { s.fm with sel := 0x18, lfrq := v } }
    ∧ exec (.fmwDepth b d) s
        = .next { s with fm := { s.fm with sel := 0x19, pmd := if b = true then d else s.fm.pmd,
                                           amd := if b = true then s.fm.amd else d } }
    ∧ exec (.fmwCtW ct w) s = .next { s with fm := { s.fm with sel := 0x1B, ct := ct, lfoWave := w } }

/-- TIMER (R139), with the select latch moved to 0x14 by the pair (R79, R122; log 3). -/
def Obligations.FmTimerWrite : Prop :=
  ∀ (s : State) (csm resetB resetA irqenB irqenA loadB loadA : Bool),
    exec (.fmwTimer csm resetB resetA irqenB irqenA loadB loadA) s
      = .next { s with fm := { s.fm with
          sel := 0x14
          csm := csm
          flagB := if resetB = true then false else s.fm.flagB
          flagA := if resetA = true then false else s.fm.flagA
          irqenB := irqenB
          irqenA := irqenA
          tbCnt := if loadB = true ∧ s.fm.loadB = false then 16 * (256 - s.fm.tb.toNat) else s.fm.tbCnt
          taCnt := if loadA = true ∧ s.fm.loadA = false then 1024 - s.fm.ta.toNat else s.fm.taCnt
          loadB := loadB
          loadA := loadA
          irq := (if resetA = true then false else s.fm.flagA) || (if resetB = true then false else s.fm.flagB) } }

/-- KON (R134): each slot of the channel takes `KEY_ON` or `KEY_OFF` by register source (R154, R157), and the pair moves
the select latch to 0x08 (R79, R122; log 3); every other operator, the rest of the channel and of the block stay. The
attack step of a key-on is `KEYON_STEP` at its default (log 8). -/
def Obligations.KeyOnOffWrite : Prop :=
  ∀ (c : BitVec 3) (m1 c1 m2 c2 : Bool) (s : State), ∃ t,
    exec (.fmwKon c m1 c1 m2 c2) s = .next t
    ∧ t = { s with fm := t.fm }
    ∧ ChannelFrame s.fm t.fm 0x08 c
    ∧ t.fm.chan c = { s.fm.chan c with ops := (t.fm.chan c).ops }
    ∧ ∀ p ∈ [((0 : BitVec 2), m1), (1, m2), (2, c1), (3, c2)],
        if p.2 = true then KeyOnResult s.fm.egCnt 1 (s.fm.op c p.1) (t.fm.op c p.1)
        else KeyOffResult 1 (s.fm.op c p.1) (t.fm.op c p.1)

/-- A row of an unassigned address changes no state but the select latch of the pair (R98, R153, R79; log 3). -/
def Obligations.UnassignedWrites : Prop :=
  ∀ (v : Byte) (s : State),
    ∀ p ∈ [(Instr.fmwUnassigned00 v, (0x00 : Byte)), (.fmwUnassigned02 v, 0x02), (.fmwUnassigned03 v, 0x03),
        (.fmwUnassigned04 v, 0x04), (.fmwUnassigned05 v, 0x05), (.fmwUnassigned06 v, 0x06), (.fmwUnassigned07 v, 0x07),
        (.fmwUnassigned09 v, 0x09), (.fmwUnassigned0A v, 0x0A), (.fmwUnassigned0B v, 0x0B), (.fmwUnassigned0C v, 0x0C),
        (.fmwUnassigned0D v, 0x0D), (.fmwUnassigned0E v, 0x0E), (.fmwUnassigned13 v, 0x13), (.fmwUnassigned15 v, 0x15),
        (.fmwUnassigned16 v, 0x16), (.fmwUnassigned17 v, 0x17), (.fmwUnassigned1A v, 0x1A), (.fmwUnassigned1C v, 0x1C),
        (.fmwUnassigned1D v, 0x1D), (.fmwUnassigned1E v, 0x1E), (.fmwUnassigned1F v, 0x1F)],
      exec p.1 s = .next { s with fm := { s.fm with sel := p.2 } }

/-- RL/FB/CON, KC, KF and PMS/AMS (R143 to R146): the fields each writes, with the derived fields its rule names
recomputed and no others (log 14), and the select latch moved to the row's address by the pair (R79, R122; log 3); every
other channel and the rest of the block are unchanged. The key index and the increment are the defaults of `KCI` and
`PHASE_INC`, in which the octave, the used note code and `kf`/64 semitone add up (R155, log 7), and the shifts and rows
the default tables (log 8). -/
def Obligations.ChannelWrites : Prop :=
  ∀ (c : BitVec 3) (r l : Bool) (fb con pms : BitVec 3) (ams : BitVec 2) (kc : BitVec 7) (kf : BitVec 6) (s : State),
    (∃ t, exec (.fmwRlFbCon c r l fb con) s = .next t ∧ t = { s with fm := t.fm }
      ∧ ChannelFrame s.fm t.fm (0x20 + c.setWidth 8) c
      ∧ t.fm.chan c = { s.fm.chan c with rl := BitVec.ofBool r ++ BitVec.ofBool l, fb := fb, con := con })
    ∧ (∃ t, exec (.fmwKc c kc) s = .next t ∧ t = { s with fm := t.fm }
      ∧ ChannelFrame s.fm t.fm (0x28 + c.setWidth 8) c
      ∧ t.fm.chan c = { s.fm.chan c with kc := kc, kci := keyIndex kc (s.fm.chan c).kf, ops := (t.fm.chan c).ops }
      ∧ ((kc.extractLsb 3 0).toNat % 4 ≠ 3 → (t.fm.chan c).kci
          = 64 * (12 * (kc.extractLsb 6 4).toNat
              + ((kc.extractLsb 3 0).toNat - (kc.extractLsb 3 0).toNat / 4 : Nat) : Int) + (s.fm.chan c).kf.toNat)
      ∧ ∀ sl, (s.fm.op c sl).SameRegisters (t.fm.op c sl) ∧ FreqDerived params (t.fm.chan c) (t.fm.op c sl)
          ∧ EnvelopeDerived params kc (t.fm.op c sl))
    ∧ (∃ t, exec (.fmwKf c kf) s = .next t ∧ t = { s with fm := t.fm }
      ∧ ChannelFrame s.fm t.fm (0x30 + c.setWidth 8) c
      ∧ t.fm.chan c = { s.fm.chan c with kf := kf, kci := keyIndex (s.fm.chan c).kc kf, ops := (t.fm.chan c).ops }
      ∧ ∀ sl, t.fm.op c sl = { s.fm.op c sl with freq := (t.fm.op c sl).freq }
          ∧ FreqDerived params (t.fm.chan c) (t.fm.op c sl)
          ∧ (t.fm.op c sl).freq = phaseInc (s.fm.chan c).kc 0 kf.toNat (s.fm.op c sl).dt1 (s.fm.op c sl).dt2
              (s.fm.op c sl).mul)
    ∧ (∃ t, exec (.fmwPmsAms c pms ams) s = .next t ∧ t = { s with fm := t.fm }
      ∧ ChannelFrame s.fm t.fm (0x38 + c.setWidth 8) c
      ∧ t.fm.chan c = { s.fm.chan c with pms := pms, ams := ams })

/-- DT1/MUL, TL and DT2/D2R (R147, R148, R151): the operator's fields, with the derived fields its rule names recomputed
and no others (DT1/MUL the increment alone, TL `tl_att` alone; log 14), and the select latch moved to the row's address
by the pair (R79, R122; log 3); every other operator and the rest of the block are unchanged. The increment is the
default `PHASE_INC` and the shifts and rows the default tables (log 7, 8). -/
def Obligations.OperatorPitchAndLevelWrites : Prop :=
  ∀ (sl : BitVec 2) (c : BitVec 3) (dt1 : BitVec 3) (mul : BitVec 4) (tl : BitVec 7) (dt2 : BitVec 2) (d2r : BitVec 5)
    (s : State),
    (∃ t, exec (.fmwDt1Mul sl c dt1 mul) s = .next t ∧ t = { s with fm := t.fm }
      ∧ OperatorFrame s.fm t.fm (0x40 + 8 * sl.setWidth 8 + c.setWidth 8) c sl
      ∧ t.fm.op c sl = { s.fm.op c sl with dt1 := dt1, mul := mul, freq := (t.fm.op c sl).freq }
      ∧ FreqDerived params (s.fm.chan c) (t.fm.op c sl))
    ∧ (∃ t, exec (.fmwTl sl c tl) s = .next t ∧ t = { s with fm := t.fm }
      ∧ OperatorFrame s.fm t.fm (0x60 + 8 * sl.setWidth 8 + c.setWidth 8) c sl
      ∧ t.fm.op c sl = { s.fm.op c sl with tl := tl, tlAtt := tl.toNat <<< 3 })
    ∧ (∃ t, exec (.fmwDt2D2r sl c dt2 d2r) s = .next t ∧ t = { s with fm := t.fm }
      ∧ OperatorFrame s.fm t.fm (0xC0 + 8 * sl.setWidth 8 + c.setWidth 8) c sl
      ∧ Operator.SameRegisters { s.fm.op c sl with dt2 := dt2, d2r := d2r } (t.fm.op c sl)
      ∧ FreqDerived params (s.fm.chan c) (t.fm.op c sl) ∧ EnvelopeDerived params (s.fm.chan c).kc (t.fm.op c sl))

/-- KS/AR, AMSEN/D1R and D1L/RR (R149, R150, R152): the operator's fields, its envelope fields recomputed and no other
derived field (log 14), and the select latch moved to the row's address by the pair (R79, R122; log 3); every other
operator and the rest of the block are unchanged. The shifts and rows are the default tables (log 8). -/
def Obligations.OperatorEnvelopeWrites : Prop :=
  ∀ (sl : BitVec 2) (c : BitVec 3) (ks : BitVec 2) (ar d1r : BitVec 5) (ams : Bool) (d1l rr : BitVec 4) (s : State),
    (∃ t, exec (.fmwKsAr sl c ks ar) s = .next t ∧ t = { s with fm := t.fm }
      ∧ OperatorFrame s.fm t.fm (0x80 + 8 * sl.setWidth 8 + c.setWidth 8) c sl
      ∧ Operator.SameRegisters { s.fm.op c sl with ks := ks, ar := ar } (t.fm.op c sl)
      ∧ (t.fm.op c sl).freq = (s.fm.op c sl).freq ∧ EnvelopeDerived params (s.fm.chan c).kc (t.fm.op c sl))
    ∧ (∃ t, exec (.fmwAmsD1r sl c ams d1r) s = .next t ∧ t = { s with fm := t.fm }
      ∧ OperatorFrame s.fm t.fm (0xA0 + 8 * sl.setWidth 8 + c.setWidth 8) c sl
      ∧ Operator.SameRegisters { s.fm.op c sl with amsEn := ams, d1r := d1r } (t.fm.op c sl)
      ∧ (t.fm.op c sl).freq = (s.fm.op c sl).freq ∧ EnvelopeDerived params (s.fm.chan c).kc (t.fm.op c sl))
    ∧ (∃ t, exec (.fmwD1lRr sl c d1l rr) s = .next t ∧ t = { s with fm := t.fm }
      ∧ OperatorFrame s.fm t.fm (0xE0 + 8 * sl.setWidth 8 + c.setWidth 8) c sl
      ∧ Operator.SameRegisters { s.fm.op c sl with d1l := d1l, rr := rr } (t.fm.op c sl)
      ∧ (t.fm.op c sl).freq = (s.fm.op c sl).freq ∧ EnvelopeDerived params (s.fm.chan c).kc (t.fm.op c sl))

/-! ### The FM sample step -/

/-- The LFO and the noise register in one sample (R171 to R175), with `LFO_STEP` and `NOISE_STEP` at their defaults (log
8) and waveform 3 the open table (log 9). -/
def Obligations.LfoAndNoiseAdvance : Prop :=
  (∀ fm : Fm, ∃ fm', fm.lfoAdvance params = fm'
    ∧ fm' = { fm with lfoPhase := fm'.lfoPhase, lfoTimer := fm'.lfoTimer, lfoFrac := fm'.lfoFrac, lfa := fm'.lfa,
                      lfp := fm'.lfp }
    ∧ (fm.test.getLsbD 1 = true → fm'.lfoPhase = 0 ∧ fm'.lfoTimer = fm.lfoTimer ∧ fm'.lfoFrac = fm.lfoFrac)
    ∧ (fm.test.getLsbD 1 = false → fm.lfoTimer + 1 < 2 ^ (18 - (fm.lfrq.extractLsb 7 4).toNat) →
        fm'.lfoPhase = fm.lfoPhase ∧ fm'.lfoTimer = fm.lfoTimer + 1 ∧ fm'.lfoFrac = fm.lfoFrac)
    ∧ (fm.test.getLsbD 1 = false → 2 ^ (18 - (fm.lfrq.extractLsb 7 4).toNat) ≤ fm.lfoTimer + 1 →
        fm'.lfoTimer = 0
          ∧ fm'.lfoPhase.toNat
              = (fm.lfoPhase.toNat + ((fm.lfoFrac.toNat + 16 + (fm.lfrq.extractLsb 3 0).toNat) >>> 4)) % 256
          ∧ fm'.lfoFrac.toNat = (fm.lfoFrac.toNat + 16 + (fm.lfrq.extractLsb 3 0).toNat) % 16)
    ∧ ∃ (a : Nat) (p : Int), fm'.lfa = a * fm.amd.toNat / 128 ∧ fm'.lfp = (p * fm.pmd.toNat).tdiv 128
        ∧ (fm.lfoWave = 0 → a = 255 - fm'.lfoPhase.toNat
            ∧ p = if fm'.lfoPhase < 128 then (fm'.lfoPhase.toNat : Int) else fm'.lfoPhase.toNat - 255)
        ∧ (fm.lfoWave = 1 → a = (if fm'.lfoPhase < 128 then 255 else 0)
            ∧ p = if fm'.lfoPhase < 128 then 128 else -128)
        ∧ (fm.lfoWave = 2 →
            (a : Int) = (if fm'.lfoPhase < 128 then 255 - 2 * (fm'.lfoPhase.toNat : Int)
              else 2 * fm'.lfoPhase.toNat - 256)
            ∧ p = if fm'.lfoPhase < 64 then 2 * (fm'.lfoPhase.toNat : Int)
                else if fm'.lfoPhase < 128 then 255 - 2 * (fm'.lfoPhase.toNat : Int)
                else if fm'.lfoPhase < 192 then 256 - 2 * (fm'.lfoPhase.toNat : Int)
                else 2 * (fm'.lfoPhase.toNat : Int) - 511)
        ∧ (fm.lfoWave = 3 → a = (Config.lfoNoiseWave fm'.lfoPhase).toNat ∧ p = (a : Int) - 128))
  ∧ (∀ fm : Fm, ∃ k acc, fm.noiseAcc.toNat + 131072 / (32 - min fm.nfrq.toNat 30) = 65536 * k + acc ∧ acc < 65536
      ∧ fm.noiseAdvance params = { fm with
          noiseAcc := BitVec.ofNat 16 acc
          noiseRng := Nat.repeat (fun r : BitVec 17 =>
            (r >>> 1) ||| ((((r ^^^ (r >>> 3)) &&& 1) ^^^ 1) <<< 16)) k fm.noiseRng })

/-- `EG_DIVIDE()` (R180): two samples of three only count; the third runs an EG tick, in which every operator takes the
step of its envelope state (R183 to R189) and nothing else changes. The tables are the defaults (log 8); the tests
against 0 and 1023 are made at every tick (log 18). -/
def Obligations.EnvelopeDivider : Prop :=
  ∀ fm : Fm,
    (fm.egDiv ≠ 2 → fm.egDivide params = { fm with egDiv := fm.egDiv + 1 })
    ∧ (fm.egDiv = 2 → ∃ fm', fm.egDivide params = fm'
        ∧ fm' = { fm with egDiv := 0, egCnt := fm.egCnt + 1, chans := fm'.chans }
        ∧ (∀ c, fm'.chan c = { fm.chan c with ops := (fm'.chan c).ops })
        ∧ ∀ c sl, EnvelopeStepResult (fm.egCnt + 1) (fm.op c sl) (fm'.op c sl))

/-- `CHANNEL_OUT(c)` (R195 to R201, R205): the feedback of M1, the eight algorithms as closed formulas, the delay cell,
and the noise that replaces C2. `m1` is M1's output of the sample before; `y sl x` is slot `sl`'s output for the input
`x`. An arithmetic shift is a floor division (R8). -/
def Obligations.ChannelOutputByAlgorithm : Prop :=
  ∀ (lfa : Nat) (noise : Option (BitVec 17)) (ch : Channel),
    let am := if ch.ams = 0 then 0 else lfa <<< (ch.ams.toNat - 1)
    let env := fun sl : BitVec 2 =>
      (ch.ops.get sl).att + (ch.ops.get sl).tlAtt + (if (ch.ops.get sl).amsEn = true then am else 0)
    let wave := fun (sl : BitVec 2) (x : Int) =>
      if env sl < 832 then opOut ((((ch.ops.get sl).phase.toNat >>> 16 : Nat) + x) % 1024).toNat (env sl) else 0
    let y := fun (sl : BitVec 2) (x : Int) => wave sl (x / 2)
    let m1 := ch.fbCur
    let c2 := fun x : Int =>
      match noise with
      | none => y 3 x
      | some rng =>
        (if rng.getLsbD 16 = true then 1 else -1) * (if env 3 < 1023 then (((env 3) ^^^ 1023) * 2 : Nat) else 0 : Int)
    let ch' := (ch.output params lfa noise).1
    ch' = { ch with fbPrev := m1, fbCur := ch'.fbCur, mem := ch'.mem }
    ∧ ch'.fbCur = wave 0 (if ch.fb = 0 then 0 else (ch.fbPrev + ch.fbCur) / 2 ^ (10 - ch.fb.toNat))
    ∧ (ch'.mem, (ch.output params lfa noise).2) =
        match ch.con.toNat with
        | 0 => (y 2 m1, c2 (y 1 ch.mem))
        | 1 => (m1 + y 2 0, c2 (y 1 ch.mem))
        | 2 => (y 2 0, c2 (m1 + y 1 ch.mem))
        | 3 => (y 2 m1, c2 (ch.mem + y 1 0))
        | 4 => (0, y 2 m1 + c2 (y 1 0))
        | 5 => (m1, y 1 ch.mem + y 2 m1 + c2 m1)
        | 6 => (0, y 1 0 + y 2 m1 + c2 0)
        | _ => (0, m1 + y 1 0 + y 2 0 + c2 0)

/-- SAMPLE (R170, R210, R213): the generators, then the channels' outputs from the state they left, the clamped mix of
each side, the phases, CSM and the timers; the frame is returned, and nothing outside the FM engine changes. The modulated
increment is the default `PHASE_INC` (log 7), and the generators, the channels' outputs and CSM run on the other default
configuration fields (`params`, log 8). -/
def Obligations.SampleFrame : Prop :=
  ∀ s : State, ∃ (t : State) (g p : Fm), exec .sample s = .next t
    ∧ t = { s with fm := t.fm, trace := s.trace ++ [.frame t.fm.outL t.fm.outR] }
    ∧ g = ((s.fm.lfoAdvance params).noiseAdvance params).egDivide params
    ∧ t.fm = (p.csmStep params).timers
    ∧ t.fm.outL = p.outL ∧ t.fm.outR = p.outR
    ∧ p = { g with outL := p.outL, outR := p.outR, chans := p.chans }
    ∧ ∃ out : BitVec 3 → Channel × Int,
        (∀ c, out c = (g.chan c).output params g.lfa (if c = 7 ∧ g.ne = true then some g.noiseRng else none))
        ∧ p.outL = max (-32768) (min 32767
            (([0, 1, 2, 3, 4, 5, 6, 7] : List (BitVec 3)).map fun c =>
              if (g.chan c).rl.getLsbD 0 = true then (out c).2 else 0).sum)
        ∧ p.outR = max (-32768) (min 32767
            (([0, 1, 2, 3, 4, 5, 6, 7] : List (BitVec 3)).map fun c =>
              if (g.chan c).rl.getLsbD 1 = true then (out c).2 else 0).sum)
        ∧ (∀ c, p.chan c = { (out c).1 with ops := (p.chan c).ops })
        ∧ ∀ c sl,
            let m : Int :=
              if (g.chan c).pms = 0 then 0
              else if (g.chan c).pms.toNat < 6 then g.lfp / 2 ^ (6 - (g.chan c).pms.toNat)
              else g.lfp * 2 ^ ((g.chan c).pms.toNat - 5)
            p.op c sl = { g.op c sl with
              phase := (g.op c sl).phase
                + (if m = 0 then (g.op c sl).freq
                   else phaseInc (g.chan c).kc (g.chan c).kf m (g.op c sl).dt1 (g.op c sl).dt2 (g.op c sl).mul) }

/-- CSM and the two FM timers at the end of a sample (R220 to R224), for timers whose running counts are not 0, which
every step keeps (`RangesKept`). -/
def Obligations.FmTimersAndCsm : Prop :=
  (∀ fm : Fm,
    (fm.csmReq = 2 → ∃ fm', fm.csmStep params = fm' ∧ fm' = { fm with csmReq := 1, chans := fm'.chans }
      ∧ (∀ c, fm'.chan c = { fm.chan c with ops := (fm'.chan c).ops })
      ∧ ∀ c sl, KeyOnResult fm.egCnt 2 (fm.op c sl) (fm'.op c sl))
    ∧ (fm.csmReq = 1 → ∃ fm', fm.csmStep params = fm' ∧ fm' = { fm with csmReq := 0, chans := fm'.chans }
      ∧ (∀ c, fm'.chan c = { fm.chan c with ops := (fm'.chan c).ops })
      ∧ ∀ c sl, KeyOffResult 2 (fm.op c sl) (fm'.op c sl))
    ∧ (fm.csmReq = 0 → fm.csmStep params = fm))
  ∧ (∀ fm : Fm, (fm.loadA = true → 1 ≤ fm.taCnt) → (fm.loadB = true → 1 ≤ fm.tbCnt) →
      ∃ fm', fm.timers = fm'
        ∧ fm' = { fm with taCnt := fm'.taCnt, tbCnt := fm'.tbCnt, flagA := fm'.flagA, flagB := fm'.flagB,
                          csmReq := fm'.csmReq, irq := fm'.flagA || fm'.flagB }
        ∧ (if fm.loadA = true ∧ fm.taCnt = 1 then
            fm'.taCnt = 1024 - fm.ta.toNat ∧ fm'.flagA = (fm.flagA || fm.irqenA)
              ∧ fm'.csmReq = (if fm.csm = true then 2 else fm.csmReq)
          else
            fm'.taCnt = (if fm.loadA = true then fm.taCnt - 1 else fm.taCnt) ∧ fm'.flagA = fm.flagA
              ∧ fm'.csmReq = fm.csmReq)
        ∧ (if fm.loadB = true ∧ fm.tbCnt = 1 then
            fm'.tbCnt = 16 * (256 - fm.tb.toNat) ∧ fm'.flagB = (fm.flagB || fm.irqenB)
          else fm'.tbCnt = (if fm.loadB = true then fm.tbCnt - 1 else fm.tbCnt) ∧ fm'.flagB = fm.flagB))

/-- SAMPLE n is n successive samples (R411, log 15). -/
def Obligations.SamplesCompose : Prop :=
  ∀ (n : Nat) (s : State), ∃ t, exec (.samples n) s = .next t
    ∧ (n = 0 → t = s)
    ∧ (s.mark = none → runOperations (List.replicate n .sample) s = .next t)
    ∧ ∃ u, exec .sample t = .next u ∧ exec (.samples (n + 1)) s = .next u

/-- An operator at or above `ENV_QUIET` contributes nothing (R196): with every total level at 832 or more, no feedback
value left over and noise off, every later frame is (0, 0), whatever the envelopes, keys, CSM and LFO do (R405). -/
def Obligations.SilencedFrames : Prop :=
  ∀ (n : Nat) (s : State), (∀ c sl, 832 ≤ (s.fm.op c sl).tlAtt) → (∀ c, (s.fm.chan c).fbCur = 0) → s.fm.ne = false →
    ∃ t, exec (.samples n) s = .next t ∧ t.trace = s.trace ++ List.replicate n (.frame 0 0)

/-- After reset the block is quiet (R392): every frame is (0, 0), 65535 ticks change the count alone and output nothing,
and 65536 ticks lead back to the reset state. TE is 0 there, so that the last of them pulses is not to be seen here:
`TimerPeriod` says it, for a load of 0 too. The tick clauses rest on the default PULSE (log 10). -/
def Obligations.QuietAfterReset : Prop :=
  (∀ n, ∃ t, exec (.samples n) State.reset = .next t ∧ t.trace = List.replicate n (.frame 0 0))
  ∧ (∀ n : Nat, 1 ≤ n → n ≤ 65535 →
      runOperations (List.replicate n .tick) State.reset
        = .next { State.reset with pit := { State.reset.pit with
            cnt0 := { State.reset.pit.cnt0 with run := BitVec.ofNat 16 (65536 - n) } } })
  ∧ runOperations (List.replicate 65536 .tick) State.reset = .next State.reset

/-- The default `OPOUT` (R197): within 8168 in size, reached, odd-symmetric in the sign bit of the phase index, and 0
from `ENV_QUIET` on (R196). -/
def Obligations.OperatorOutputBound : Prop :=
  (∀ idx env, -8168 ≤ opOut idx env ∧ opOut idx env ≤ 8168)
  ∧ (∀ idx env, 832 ≤ env → opOut idx env = 0)
  ∧ (∀ idx env, idx < 512 → opOut (idx + 512) env = -(opOut idx env))
  ∧ tlTab 0 = 8168

/-! ### The interval timer -/

/-- The command port (R240, R241): latch, control, and the ignored form. That a latch command leaves the write toggle is
R240's pseudocode, against the wording of R402 (log 29). -/
def Obligations.PitCommands : Prop :=
  ∀ (n : CounterId) (rw : BitVec 2) (mode : BitVec 3) (bcd : Bool) (low : BitVec 6) (s : State),
    exec (.outPitLatch n.sc) s
      = .next (s.setPit (s.pit.set n
          (if (s.pit.get n).latched = true then s.pit.get n
           else { s.pit.get n with latch := (s.pit.get n).run, latched := true, rdHi := false })))
    ∧ (rw ≠ 0 → exec (.outPitControl n.sc rw mode bcd) s
        = .next (s.setPit (s.pit.set n
            { s.pit.get n with rw := rw, mode := mode, bcd := bcd, wrHi := false, rdHi := false, latched := false })))
    ∧ exec (.outPitIgnored low) s = .next s

/-- A counter load, in each of its byte orders, for all three counters (R242, R243). `rw` = 0 is never stored
(`TimerInvariantKept`). -/
def Obligations.PitCounterWrite : Prop :=
  ∀ (n : CounterId) (v : Byte) (s : State), ∃ c, exec (n.writeInstr v) s = .next { s with pit := s.pit.set n c }
    ∧ ((s.pit.get n).rw = 1 → c = { s.pit.get n with load := v.setWidth 16, run := v.setWidth 16 })
    ∧ ((s.pit.get n).rw = 2 → c = { s.pit.get n with load := v.setWidth 16 <<< 8, run := v.setWidth 16 <<< 8 })
    ∧ ((s.pit.get n).rw = 3 → (s.pit.get n).wrHi = false →
        c = { s.pit.get n with load := (s.pit.get n).load.extractLsb 15 8 ++ v, wrHi := true })
    ∧ ((s.pit.get n).rw = 3 → (s.pit.get n).wrHi = true →
        c = { s.pit.get n with load := v ++ (s.pit.get n).load.extractLsb 7 0
                               run := v ++ (s.pit.get n).load.extractLsb 7 0
                               wrHi := false })

/-- A counter read-back, in each of its byte orders, for all three counters (R245, R243). `rw` = 0 is never stored
(`TimerInvariantKept`). -/
def Obligations.PitCounterRead : Prop :=
  ∀ (n : CounterId) (s : State), ∃ c r, exec n.readInstr s
      = .next { s with pit := s.pit.set n c, trace := s.trace ++ [.portRead n.offset r] }
    ∧ let src := if (s.pit.get n).latched = true then (s.pit.get n).latch else (s.pit.get n).run
      ((s.pit.get n).rw = 1 → r = src.extractLsb 7 0 ∧ c = { s.pit.get n with latched := false })
      ∧ ((s.pit.get n).rw = 2 → r = src.extractLsb 15 8 ∧ c = { s.pit.get n with latched := false })
      ∧ ((s.pit.get n).rw = 3 → (s.pit.get n).rdHi = false →
          r = src.extractLsb 7 0 ∧ c = { s.pit.get n with rdHi := true })
      ∧ ((s.pit.get n).rw = 3 → (s.pit.get n).rdHi = true →
          r = src.extractLsb 15 8 ∧ c = { s.pit.get n with rdHi := false, latched := false })

/-- A latch command freezes the count for two reads, however many ticks fall between (R245, R403). -/
def Obligations.LatchedReadBack : Prop :=
  ∀ (n : CounterId) (k : Nat) (s : State), s.mark = none → (s.pit.get n).rw = 3 → (s.pit.get n).latched = false →
    ∃ t es, runOperations (Instr.outPitLatch n.sc :: List.replicate k .tick ++ [n.readInstr, n.readInstr]) s = .next t
      ∧ t.trace = s.trace ++ es ++ [.portRead n.offset ((s.pit.get n).run.extractLsb 7 0),
          .portRead n.offset ((s.pit.get n).run.extractLsb 15 8)]
      ∧ (∀ e ∈ es, ∃ l b, e = .callback l b)
      ∧ (t.pit.get n).latched = false

/-- TICK (R247, R248, R320): the count of counter 0 goes down; at 0 it is reloaded and the output makes a low-then-high
pulse that sets the timer status when TE = 1 and TC = 0 (R322), with the network at its levels after it. The pulse is the
default tick mode PULSE (log 10). -/
def Obligations.TickEffect : Prop :=
  ∀ s : State,
    (s.pit.cnt0.run ≠ 1 →
      exec .tick s = .next { s with pit := { s.pit with cnt0 := { s.pit.cnt0 with run := s.pit.cnt0.run - 1 } } })
    ∧ (s.pit.cnt0.run = 1 → ∃ t, exec .tick s = .next t
        ∧ t = { s with pit := { s.pit with cnt0 := { s.pit.cnt0 with run := s.pit.cnt0.load }, out0 := true }
                       net := t.net
                       trace := t.trace }
        ∧ t.net.tcr = s.net.tcr
        ∧ t.net.ts = (if s.net.tcr.getLsbD 1 = true then false
            else if s.net.tcr.getLsbD 0 = true then true else s.net.ts)
        ∧ t.NetSettled)

/-- The period of counter 0 (R247): from a fresh load, fewer ticks than the period only count, and the last of the
period pulses and leaves the count loaded again; a load of 0 stands for 65536. The pulse is the default PULSE (log
10). -/
def Obligations.TimerPeriod : Prop :=
  ∀ (s : State) (n : Nat), s.mark = none → s.pit.cnt0.run = s.pit.cnt0.load →
    n = (if s.pit.cnt0.load = 0 then 65536 else s.pit.cnt0.load.toNat) →
    (∀ k < n, runOperations (List.replicate k .tick) s
        = .next { s with pit := { s.pit with cnt0 := { s.pit.cnt0 with run := BitVec.ofNat 16 (n - k) } } })
    ∧ ∃ t, runOperations (List.replicate n .tick) s = .next t
        ∧ t.pit = { s.pit with out0 := true }
        ∧ t.net.ts = (if s.net.tcr.getLsbD 1 = true then false
            else if s.net.tcr.getLsbD 0 = true then true else s.net.ts)

/-- A pulse with TE = 1, TC = 0, OE = 1 and IE = 1 raises `Callback(HOST, 1)` once, and only if the card status was 0;
with OE = 0 it sets the status and raises nothing, and a later write of OE = 1 and IE = 1 raises the callback (R327).
That a tick at count 1 pulses rests on the default tick mode PULSE (log 10): under SQUARE of R249 it need not. -/
def Obligations.TickRaisesHostLine : Prop :=
  ∀ s : State, s.NetSettled → s.net.tcr.getLsbD 0 = true → s.net.tcr.getLsbD 1 = false → s.pit.cnt0.run = 1 →
    (s.net.tcr.getLsbD 6 = true → s.net.tcr.getLsbD 7 = true →
      ∃ t, exec .tick s = .next t ∧ t.net.ts = true ∧ t.net.host = .high
        ∧ t.trace = s.trace ++ (if s.net.card = true then [] else [.callback .host true]))
    ∧ (s.net.tcr.getLsbD 6 = false →
      ∃ t, exec .tick s = .next t ∧ t.net.ts = true ∧ t.net.host = .z ∧ t.trace = s.trace
        ∧ ∀ (m : BitVec 2) (v : Byte), v.getLsbD 1 = false → v.getLsbD 6 = true → v.getLsbD 7 = true →
            ∃ u, exec (.outNetTcr m v) t = .next u ∧ u.net.host = .high
              ∧ u.trace = s.trace ++ [.callback .host true])

/-! ### The parallel interface -/

/-- A mode word sets the unit's fields, clears its latches and flags, and propagates (R276); a bidirectional one sets
the refusal mark and nothing else (R277). -/
def Obligations.PiuModeWords : Prop :=
  (∀ (q : PiuId) (m : ModeWord) (s : State), m.wellFormed = true →
    exec (modeInstr q m) s = .next (State.piuUpdate (s.setPiu q
      { s.piu q with
        ma := m.ma, dirA := m.dirA, dirCh := m.dirCh, mb := m.mb, dirB := m.dirB, dirCl := m.dirCl,
        outA := 0, outB := 0, outC := 0, obfA := false, obfB := false, ibfA := false, ibfB := false,
        inteA := false, inteB := false, intrA := false, intrB := false })))
  ∧ (∀ (low : BitVec 6) (s : State),
      exec (.outPiuHModeBidir low) s = .next { s with mark := some .piuBidirectional }
      ∧ exec (.fwoutModeBidir low) s = .next { s with mark := some .piuBidirectional })

/-- `PIU_UPDATE()` (R290, R291, R320): from every state it reaches the fixed point of the four handshake signals, with
the requests and the network at their levels; what programs set in either unit and the rest of the block stay. -/
def Obligations.PiuUpdateReachesFixedPoint : Prop :=
  ∀ s : State,
    HandshakeAtRest s.piuUpdate.piuH s.piuUpdate.piuF
    ∧ s.piuUpdate.NetSettled
    ∧ s.piuH.SameProgrammed s.piuUpdate.piuH ∧ s.piuF.SameProgrammed s.piuUpdate.piuF
    ∧ PiuFrame s s.piuUpdate

/-- Port C bit set/reset (R278, R116): the group's interrupt enable, nothing for another handshake bit, else one bit of
the latch; then the propagation. -/
def Obligations.PortCBitSet : Prop :=
  ∀ (q : PiuId) (n : BitVec 3) (b : Bool) (s : State), ∃ p',
    exec (bitSetInstr q n b) s = .next (State.piuUpdate (s.setPiu q p'))
    ∧ p' = { s.piu q with inteA := p'.inteA, inteB := p'.inteB, outC := p'.outC }
    ∧ (((s.piu q).ma = 1 ∧ (((s.piu q).dirA = false ∧ n = 6) ∨ ((s.piu q).dirA = true ∧ n = 4))) →
        p' = { s.piu q with inteA := b })
    ∧ (((s.piu q).mb = true ∧ n = 2) → p' = { s.piu q with inteB := b })
    ∧ ((s.piu q).HandshakeBit n.toNat → p'.outC = (s.piu q).outC)
    ∧ (¬ (s.piu q).HandshakeBit n.toNat → p' = { s.piu q with outC := p'.outC }
        ∧ ∀ k < 8, p'.outC.getLsbD k = if k = n.toNat then b else (s.piu q).outC.getLsbD k)
    ∧ ((s.piu q).HandshakeBit n.toNat → n ≠ 2 → n ≠ 4 → n ≠ 6 → p' = s.piu q)

/-- Writing a data port (R279): ignored in strobed input mode; else the latch, with the output-buffer-full flag in
strobed output mode, and the propagation. -/
def Obligations.DataPortWrite : Prop :=
  ∀ (q : PiuId) (x : Port) (v : Byte) (s : State),
    let strobedMode := match x with | .a => (s.piu q).ma = 1 | .b => (s.piu q).mb = true
    (strobedMode → (s.piu q).dir x = true → exec (portWriteInstr q x v) s = .next s)
    ∧ (strobedMode → (s.piu q).dir x = false →
        exec (portWriteInstr q x v) s = .next (State.piuUpdate (s.setPiu q (((s.piu q).setOut x v).setObf x true))))
    ∧ (¬ strobedMode →
        exec (portWriteInstr q x v) s = .next (State.piuUpdate (s.setPiu q ((s.piu q).setOut x v))))

/-- Reading a data port: in strobed input mode the latched byte, with the input buffer emptied and the propagation
(R280); else the own latch of an output, the counterpart's latch when it drives the pins, or any byte (R281, R272; log
5). -/
def Obligations.DataPortRead : Prop :=
  ∀ (q : PiuId) (x : Port) (s : State),
    let strobedMode := match x with | .a => (s.piu q).ma = 1 | .b => (s.piu q).mb = true
    let otherDrives := (s.piu q.other).dir x = false
      ∧ match x with | .a => ((s.piu q.other).ma = 0 ∨ (s.piu q.other).ma = 1) | .b => True
    ((strobedMode ∧ (s.piu q).dir x = true) → ∃ t, exec (portReadInstr q x) s = .next t
      ∧ t = { (s.setPiu q ((s.piu q).setIbf x false)).piuUpdate with trace := t.trace }
      ∧ t.trace = (s.setPiu q ((s.piu q).setIbf x false)).piuUpdate.trace ++ [portEvent q x ((s.piu q).inp x)])
    ∧ ((s.piu q).dir x = false →
        exec (portReadInstr q x) s = .next { s with trace := s.trace ++ [portEvent q x ((s.piu q).out x)] })
    ∧ ((s.piu q).dir x = true → ¬ strobedMode → otherDrives →
        exec (portReadInstr q x) s = .next { s with trace := s.trace ++ [portEvent q x ((s.piu q.other).out x)] })
    ∧ ((s.piu q).dir x = true → ¬ strobedMode → ¬ otherDrives →
        exec (portReadInstr q x) s
          = .next { s with draws := s.draws + 1, trace := s.trace ++ [portEvent q x (Config.draw s.draws)] })

/-- Reading port C bit by bit (R117, R283), with one drawn byte for the undriven bits (log 5, 19), and writing it (R284):
a taken bit stays, every other latch bit takes its bit of the byte, and the propagation runs. -/
def Obligations.PortCReadAndWrite : Prop :=
  ∀ (q : PiuId) (v : Byte) (s : State),
    (∃ w, exec (portCReadInstr q) s
        = .next { s with draws := s.draws + 1, trace := s.trace ++ [portCEvent q w] }
      ∧ ((s.piu q).ma = 1 → (s.piu q).dirA = false →
          w.getLsbD 7 = !(s.piu q).obfA ∧ w.getLsbD 6 = (s.piu q).inteA ∧ w.getLsbD 3 = (s.piu q).intrA)
      ∧ ((s.piu q).ma = 1 → (s.piu q).dirA = true →
          w.getLsbD 5 = (s.piu q).ibfA ∧ w.getLsbD 4 = (s.piu q).inteA ∧ w.getLsbD 3 = (s.piu q).intrA)
      ∧ ((s.piu q).mb = true → w.getLsbD 2 = (s.piu q).inteB ∧ w.getLsbD 0 = (s.piu q).intrB
          ∧ w.getLsbD 1 = (if (s.piu q).dirB = true then (s.piu q).ibfB else !(s.piu q).obfB))
      ∧ ∀ k < 8, ¬ (s.piu q).HandshakeBit k →
          w.getLsbD k = (if (if k < 4 then (s.piu q).dirCl else (s.piu q).dirCh) = true then
            (Config.draw s.draws).getLsbD k else (s.piu q).outC.getLsbD k))
    ∧ (∃ w, exec (portCWriteInstr q v) s = .next (State.piuUpdate (s.setPiu q { s.piu q with outC := w }))
      ∧ ∀ k < 8, ((s.piu q).HandshakeBit k → w.getLsbD k = (s.piu q).outC.getLsbD k)
          ∧ (¬ (s.piu q).HandshakeBit k → w.getLsbD k = v.getLsbD k))

/-- The four-phase cycle in both directions (R295): from ready, the sender's write delivers the byte, acknowledged in the
same operation; the receiver's read returns it and leaves both ends ready. -/
def Obligations.FourPhaseCycles : Prop :=
  ∀ (v : Byte) (s : State), HandshakeSettled s.piuH s.piuF →
    (s.piuH.ma = 1 → s.piuH.dirA = false → s.piuF.ma = 1 → s.piuF.dirA = true →
      s.piuH.obfA = false → s.piuF.ibfA = false →
      ∃ t u es, exec (.outPiuHPa v) s = .next t ∧ exec .fwinPa t = .next u
        ∧ t.piuF.inA = v ∧ t.piuF.ibfA = true ∧ t.piuH.obfA = false ∧ t.piuH.intrA = false
        ∧ t.piuF.intrA = s.piuF.inteA
        ∧ u.trace = t.trace ++ es ++ [.fwRead .pa v] ∧ (∀ e ∈ es, ∃ l b, e = .callback l b)
        ∧ u.piuF.ibfA = false ∧ u.piuF.intrA = false ∧ u.piuH.intrA = s.piuH.inteA ∧ u.piuH.obfA = false)
    ∧ (s.piuF.mb = true → s.piuF.dirB = false → s.piuH.mb = true → s.piuH.dirB = true →
      s.piuF.obfB = false → s.piuH.ibfB = false →
      ∃ t u es, exec (.fwoutPb v) s = .next t ∧ exec .inPiuHPb t = .next u
        ∧ t.piuH.inB = v ∧ t.piuH.ibfB = true ∧ t.piuF.obfB = false ∧ t.piuF.intrB = false
        ∧ t.piuH.intrB = s.piuH.inteB
        ∧ u.trace = t.trace ++ es ++ [.portRead 1 v] ∧ (∀ e ∈ es, ∃ l b, e = .callback l b)
        ∧ u.piuH.ibfB = false ∧ u.piuH.intrB = false ∧ u.piuF.intrB = s.piuF.inteB ∧ u.piuF.obfB = false)

/-- A byte written to port A before the firmware is in strobed input mode waits (R296): the firmware's mode word for
strobed input delivers it, and the host's own later mode word drops it. -/
def Obligations.WaitingByteDelivered : Prop :=
  ∀ (v : Byte) (s : State), HandshakeSettled s.piuH s.piuF → s.piuH.ma = 1 → s.piuH.dirA = false →
    (s.piuF.ma = 0 ∨ s.piuF.dirA = false) →
    ∃ t, exec (.outPiuHPa v) s = .next t ∧ t.piuH.obfA = true ∧ t.piuH.outA = v ∧ t.piuF.inA = s.piuF.inA
      ∧ (∀ m : ModeWord, m.ma = 1 → m.dirA = true →
          ∃ u, exec (.fwoutMode m) t = .next u ∧ u.piuF.inA = v ∧ u.piuF.ibfA = true ∧ u.piuH.obfA = false)
      ∧ (∀ m : ModeWord, m.wellFormed = true →
          ∃ u, exec (.outPiuHMode m) t = .next u ∧ u.piuH.obfA = false ∧ u.piuH.outA = 0
            ∧ u.piuF.inA = s.piuF.inA)

/-! ### The network -/

/-- The network's registers (R314 to R316), at all four mirrored offsets. -/
def Obligations.NetworkRegisters : Prop :=
  ∀ (m : BitVec 2) (v : Byte) (s : State),
    exec (.outNetTcr m v) s = .next (State.netUpdate { s with net := { s.net with tcr := v } })
    ∧ exec (.inNetTcr m) s = .next { s with trace := s.trace ++ [.portRead (8 + m.setWidth 4) s.net.tcr] }
    ∧ exec (.inNetTsr m) s
        = .next { s with trace := s.trace ++ [.portRead (12 + m.setWidth 4)
            (BitVec.ofBool (s.net.host == .high) ++ 0#3 ++ BitVec.ofBool s.net.card ++ BitVec.ofBool s.piuH.intrB
              ++ BitVec.ofBool s.piuH.intrA ++ BitVec.ofBool s.net.ts)] }
    ∧ exec (.outNetTsr m v) s = .next s

/-- `NET_UPDATE()` (R320, R322 to R326): every level it computes, the callbacks it raises, HOST before FW, what it
leaves, and that a second call changes nothing and raises nothing. -/
def Obligations.NetUpdateLevels : Prop :=
  ∀ s : State, ∃ t, s.netUpdate = t
    ∧ t = { s with net := t.net, trace := t.trace }
    ∧ t.net.tcr = s.net.tcr
    ∧ t.net.out0Seen = s.pit.out0
    ∧ t.net.ts = (if s.net.tcr.getLsbD 1 = true then false
        else if s.net.out0Seen = false ∧ s.pit.out0 = true ∧ s.net.tcr.getLsbD 0 = true then true else s.net.ts)
    ∧ t.net.card = (t.net.ts || s.piuH.intrA || s.piuH.intrB)
    ∧ t.net.host = (if s.net.tcr.getLsbD 6 = true then
        (if t.net.card = true ∧ s.net.tcr.getLsbD 7 = true then .high else .low) else .z)
    ∧ t.net.fw = (s.piuF.intrA || s.piuF.intrB)
    ∧ (t.net.hostSeen = true ↔ t.net.host = .high)
    ∧ t.net.fwSeen = t.net.fw
    ∧ t.trace = s.trace ++ (if t.net.hostSeen = s.net.hostSeen then [] else [.callback .host t.net.hostSeen])
        ++ (if t.net.fwSeen = s.net.fwSeen then [] else [.callback .fw t.net.fwSeen])
    ∧ t.netUpdate = t

/-! ### The classifiers -/

/-- A status byte, for every table set (R341, R344, R347, R357): the new state and accumulator are determined by the byte
alone, whatever was being collected is dropped, and the byte goes to the SysEx engine at most once. -/
def Obligations.StatusByteResetsForAnyTables : Prop :=
  ∀ (T : MpcTables) (st : Stream) (b : Byte) (s : State), 128 ≤ b.toNat →
    ∃ es, (s.midiFeedWith T st b)
        = { s.setMpc st { s.mpc st with
              state := if b.extractLsb 7 4 = 15 then T.sysNext (b.extractLsb 3 0) else T.statusNext (b.extractLsb 7 4)
              acc := [b] } with trace := s.trace ++ es }
      ∧ (∀ d st' msg, Event.emit d st' msg ∈ es → st' = st ∧ (msg = [b] ∨ msg = []))
      ∧ (es.filter fun e => e = .sysex st b).length ≤ 1
      ∧ (T.sysexState (s.mpc st).state = true → Event.sysex st b ∈ es)

/-- The sixteen status rows with the default tables (R341, R344, R345, R352, R353, R356): the state each leads to, the
accumulator, the byte to the SysEx engine where one is due, and the one-byte messages of 0xF6 and the real-time bytes. -/
def Obligations.MidiStatusRows : Prop :=
  ∀ (st : Stream) (ch : BitVec 4) (rt : BitVec 3) (s : State),
    ∀ p ∈ [(Instr.midiNoteOff st ch, 0x80 + ch.setWidth 8, 1), (.midiNoteOn st ch, 0x90 + ch.setWidth 8, 4),
        (.midiPolyPressure st ch, 0xA0 + ch.setWidth 8, 7), (.midiControlChange st ch, 0xB0 + ch.setWidth 8, 10),
        (.midiProgramChange st ch, 0xC0 + ch.setWidth 8, 16), (.midiChannelPressure st ch, 0xD0 + ch.setWidth 8, 18),
        (.midiPitchBend st ch, 0xE0 + ch.setWidth 8, 13), (.midiSysEx st, (0xF0 : Byte), 20),
        (.midiTimeCode st, 0xF1, 21), (.midiSongPosition st, 0xF2, 23), (.midiSongSelect st, 0xF3, 26),
        (.midiUndefinedF4 st, 0xF4, 29), (.midiUndefinedF5 st, 0xF5, 29), (.midiTuneRequest st, 0xF6, 28),
        (.midiEndOfExclusive st, 0xF7, 30), (.midiRealTime st rt, 0xF8 + rt.setWidth 8, 31)],
      exec p.1 s = .next { s.setMpc st { s.mpc st with state := p.2.2, acc := [p.2.1] } with
        trace := s.trace
          ++ (if (s.mpc st).state = 20 ∨ p.2.2 = 20 then [.sysex st p.2.1] else [])
          ++ (if p.2.2 = 28 ∨ p.2.2 = 31 then forwarded st (s.mpc st).flow [p.2.1] else []) }

/-- A data byte with the default tables (R342 to R346, R354, R355): the state it leads to from every state, what is
accumulated, what is forwarded, and what the accumulator keeps. -/
def Obligations.MidiDataByte : Prop :=
  ∀ (st : Stream) (d : BitVec 7) (s : State), ∃ q' acc' es,
    exec (.midiData st d) s = .next { s.setMpc st { s.mpc st with state := q', acc := acc' } with
      trace := s.trace ++ es }
    ∧ (∀ p ∈ [(0, 0), (1, 2), (2, 3), (3, 2), (4, 5), (5, 6), (6, 5), (7, 8), (8, 9), (9, 8), (10, 11), (11, 12),
        (12, 11), (13, 14), (14, 15), (15, 14), (16, 17), (17, 17), (18, 19), (19, 19), (20, 20), (21, 22), (22, 0),
        (23, 24), (24, 25), (25, 0), (26, 27), (27, 0), (28, 0), (29, 0), (30, 0), (31, 0)],
        (s.mpc st).state = p.1 → q' = p.2)
    ∧ (32 ≤ (s.mpc st).state → q' = 0)
    ∧ let msg := if (s.mpc st).acc.length < 3 then (s.mpc st).acc ++ [d.setWidth 8] else (s.mpc st).acc
      let kept := (msg.take 1).filter fun b => b.getLsbD 7
      (q' = 0 → acc' = [] ∧ es = [])
      ∧ (q' = 20 → acc' = [] ∧ es = [.sysex st (d.setWidth 8)])
      ∧ ((q' = 2 ∨ q' = 5 ∨ q' = 8 ∨ q' = 11 ∨ q' = 14 ∨ q' = 24) → acc' = msg ∧ es = [])
      ∧ ((q' = 3 ∨ q' = 6 ∨ q' = 9 ∨ q' = 12 ∨ q' = 15 ∨ q' = 25) →
          acc' = kept ∧ es = forwarded st (s.mpc st).flow (msg.take 3))
      ∧ ((q' = 17 ∨ q' = 19 ∨ q' = 22 ∨ q' = 27) →
          acc' = kept ∧ es = forwarded st (s.mpc st).flow (msg.take 2))

/-- `MidiFeed` of any byte does what the row of that byte does (R120, R340), and FLOW writes one row of the flow-path
matrix and nothing else (R350). -/
def Obligations.MidiFeedAndFlow : Prop :=
  ∀ (st : Stream) (b : Byte) (m : BitVec 3) (s : State),
    (∃ t, exec (.midiFeed st b) s = .next t ∧ exec (decodeMidi st b) s = .next t)
    ∧ exec (.flow st m) s = .next (s.setMpc st { s.mpc st with flow := m })

/-- A note-on and its running status (R346, R358), on either stream, from every state: the message is emitted to each
destination of the flow row, and two further data bytes give another one with the same status byte. -/
def Obligations.NoteOnRunningStatus : Prop :=
  ∀ (st : Stream) (ch : BitVec 4) (n v n' v' : BitVec 7) (s : State), s.mark = none →
    ∃ t, runOperations [.midiNoteOn st ch, .midiData st n, .midiData st v, .midiData st n', .midiData st v'] s = .next t
      ∧ t.trace = s.trace
          ++ (if (s.mpc st).state = 20 then [.sysex st (0x90 + ch.setWidth 8)] else [])
          ++ forwarded st (s.mpc st).flow [0x90 + ch.setWidth 8, n.setWidth 8, v.setWidth 8]
          ++ forwarded st (s.mpc st).flow [0x90 + ch.setWidth 8, n'.setWidth 8, v'.setWidth 8]
      ∧ t.mpc st = { s.mpc st with state := 6, acc := [0x90 + ch.setWidth 8] }

/-- A System-Exclusive message of any length (R344, R353, R356): every byte from 0xF0 to 0xF7 goes to the SysEx engine
of its stream once, in order, and nothing is forwarded. -/
def Obligations.SysexReachesEngineInOrder : Prop :=
  ∀ (st : Stream) (ds : List (BitVec 7)) (s : State), s.mark = none →
    ∃ t, runOperations (Instr.midiSysEx st :: ds.map (.midiData st) ++ [.midiEndOfExclusive st]) s = .next t
      ∧ t.trace = s.trace ++ [.sysex st 0xF0] ++ ds.map (fun d => .sysex st (d.setWidth 8)) ++ [.sysex st 0xF7]
      ∧ t.mpc st = { s.mpc st with state := 30, acc := [0xF7] }

/-! ### The configuration fields -/

/-- For every value of the configuration fields of R7 (log 8) every operation completes, and every step keeps each derived
field equal to its recomputation by those fields (R158), the chip-wide ranges (R20, R24, R172, R222), and the handshake
and the network settled (R290, R320); RESET leaves the derived fields recomputed (R391). `exec` and `step` are the
machine at the defaults, `params`. The envelope invariant of R25 is not among these: its bound on the level rests on the
default `EG_INC` (log 8, `EnvelopeInvariantKept`). -/
def Obligations.AnyParametersKeepInvariants : Prop :=
  (∀ P : Params,
    (∀ (i : Instr) (s : State), ∃ t, execWith P i s = .next t)
    ∧ (∀ s t : State, s.fm.DerivedSound P → stepWith P s = .next t → t.fm.DerivedSound P)
    ∧ (∀ s t : State, s.fm.RangesSound → stepWith P s = .next t → t.fm.RangesSound)
    ∧ (∀ s t : State, HandshakeSettled s.piuH s.piuF → s.NetSettled → stepWith P s = .next t →
        HandshakeSettled t.piuH t.piuF ∧ t.NetSettled)
    ∧ (∀ s : State, ∃ t, execWith P .reset s = .next t ∧ t.fm.DerivedSound P))
  ∧ (∀ (i : Instr) (s : State), exec i s = execWith params i s)
  ∧ (∀ s : State, step s = stepWith params s)

end Slice0
end

