-- ==== Sys2Proof/Laws/Operands.lean ====
section
/-! SUPPORT. Reading after writing for channels, operators and counters: what a write names changes, what it does not
name stays. -/

namespace Sys2Proof.Machine

/-- A property of every channel number is one of the eight. -/
theorem forall_channel {P : BitVec 3 → Prop} (h : P 0 ∧ P 1 ∧ P 2 ∧ P 3 ∧ P 4 ∧ P 5 ∧ P 6 ∧ P 7) (c : BitVec 3) :
    P c := by
  obtain ⟨h0, h1, h2, h3, h4, h5, h6, h7⟩ := h
  have hc : c = 0 ∨ c = 1 ∨ c = 2 ∨ c = 3 ∨ c = 4 ∨ c = 5 ∨ c = 6 ∨ c = 7 := by revert c; decide
  rcases hc with rfl | rfl | rfl | rfl | rfl | rfl | rfl | rfl <;> assumption

/-- A property of every slot number is one of the four. -/
theorem forall_slot {P : BitVec 2 → Prop} (h : P 0 ∧ P 1 ∧ P 2 ∧ P 3) (s : BitVec 2) : P s := by
  obtain ⟨h0, h1, h2, h3⟩ := h
  have hs : s = 0 ∨ s = 1 ∨ s = 2 ∨ s = 3 := by revert s; decide
  rcases hs with rfl | rfl | rfl | rfl <;> assumption

variable {α β : Type}

@[simp] theorem Octet.get_set (o : Octet α) (c : BitVec 3) (x : α) : (o.set c x).get c = x := by
  revert c; apply forall_channel; exact ⟨rfl, rfl, rfl, rfl, rfl, rfl, rfl, rfl⟩

theorem Octet.get_set_ne (o : Octet α) {c c' : BitVec 3} (x : α) (h : c' ≠ c) : (o.set c x).get c' = o.get c' := by
  revert c'
  revert c
  apply forall_channel
  refine ⟨?_, ?_, ?_, ?_, ?_, ?_, ?_, ?_⟩ <;> apply forall_channel <;>
    exact ⟨by intro h; first | rfl | exact absurd rfl h, by intro h; first | rfl | exact absurd rfl h,
      by intro h; first | rfl | exact absurd rfl h, by intro h; first | rfl | exact absurd rfl h,
      by intro h; first | rfl | exact absurd rfl h, by intro h; first | rfl | exact absurd rfl h,
      by intro h; first | rfl | exact absurd rfl h, by intro h; first | rfl | exact absurd rfl h⟩

@[simp] theorem Octet.get_map (f : α → β) (o : Octet α) (c : BitVec 3) : (o.map f).get c = f (o.get c) := by
  revert c; apply forall_channel; exact ⟨rfl, rfl, rfl, rfl, rfl, rfl, rfl, rfl⟩

@[simp] theorem Quad.get_set (q : Quad α) (s : BitVec 2) (x : α) : (q.set s x).get s = x := by
  revert s; apply forall_slot; exact ⟨rfl, rfl, rfl, rfl⟩

theorem Quad.get_set_ne (q : Quad α) {s s' : BitVec 2} (x : α) (h : s' ≠ s) : (q.set s x).get s' = q.get s' := by
  revert s'
  revert s
  apply forall_slot
  refine ⟨?_, ?_, ?_, ?_⟩ <;> apply forall_slot <;>
    exact ⟨by intro h; first | rfl | exact absurd rfl h, by intro h; first | rfl | exact absurd rfl h,
      by intro h; first | rfl | exact absurd rfl h, by intro h; first | rfl | exact absurd rfl h⟩

@[simp] theorem Quad.get_map (f : α → α) (q : Quad α) (s : BitVec 2) : (q.map f).get s = f (q.get s) := by
  revert s; apply forall_slot; exact ⟨rfl, rfl, rfl, rfl⟩

@[simp] theorem Fm.chan_onChan (fm : Fm) (c : BitVec 3) (f : Channel → Channel) :
    (fm.onChan c f).chan c = f (fm.chan c) :=
  Octet.get_set ..

theorem Fm.chan_onChan_ne (fm : Fm) {c c' : BitVec 3} (f : Channel → Channel) (h : c' ≠ c) :
    (fm.onChan c f).chan c' = fm.chan c' :=
  Octet.get_set_ne _ _ h

@[simp] theorem Fm.op_onOp (fm : Fm) (c : BitVec 3) (s : BitVec 2) (f : Channel → Operator → Operator) :
    (fm.onOp c s f).op c s = f (fm.chan c) (fm.op c s) := by
  simp [Fm.onOp, Fm.op]

theorem Fm.op_onOp_slot_ne (fm : Fm) (c : BitVec 3) {s s' : BitVec 2} (f : Channel → Operator → Operator)
    (h : s' ≠ s) : (fm.onOp c s f).op c s' = fm.op c s' := by
  simp [Fm.onOp, Fm.op, Quad.get_set_ne _ _ h]

theorem Fm.chan_onOp_ne (fm : Fm) {c c' : BitVec 3} (s : BitVec 2) (f : Channel → Operator → Operator)
    (h : c' ≠ c) : (fm.onOp c s f).chan c' = fm.chan c' :=
  Fm.chan_onChan_ne fm _ h

@[simp] theorem Fm.op_onOps (fm : Fm) (f : Channel → Operator → Operator) (c : BitVec 3) (s : BitVec 2) :
    (fm.onOps f).op c s = f (fm.chan c) (fm.op c s) := by
  simp [Fm.onOps, Fm.op, Fm.chan]

@[simp] theorem Fm.chan_onOps (fm : Fm) (f : Channel → Operator → Operator) (c : BitVec 3) :
    (fm.onOps f).chan c = { fm.chan c with ops := (fm.chan c).ops.map (f (fm.chan c)) } := by
  simp [Fm.onOps, Fm.chan]

@[simp] theorem Pit.get_set (p : Pit) (n : CounterId) (c : Counter) : (p.set n c).get n = c := by
  cases n <;> rfl

theorem Pit.get_set_ne (p : Pit) {n n' : CounterId} (c : Counter) (h : n' ≠ n) : (p.set n c).get n' = p.get n' := by
  cases n <;> cases n' <;> first | rfl | exact absurd rfl h

@[simp] theorem Pit.set_out0 (p : Pit) (n : CounterId) (c : Counter) : (p.set n c).out0 = p.out0 := by
  cases n <;> rfl

end Sys2Proof.Machine
end

