-- ==== Sys2Proof/Laws/Params.lean ====
section
/-! SUPPORT. The fields of `params`, the configuration fields at their defaults (spec/00_scope.md R7). -/

namespace Sys2Proof.Machine

@[simp] theorem params_kci : params.kci = keyIndex := rfl
@[simp] theorem params_phaseInc : params.phaseInc = Sys2Proof.Machine.phaseInc := rfl
@[simp] theorem params_opOut : params.opOut = Sys2Proof.Machine.opOut := rfl
@[simp] theorem params_keyonStep : params.keyonStep = true := rfl
@[simp] theorem params_egInc : params.egInc = Sys2Proof.Machine.egInc := rfl
@[simp] theorem params_egRateSelect : params.egRateSelect = Sys2Proof.Machine.egRateSelect := rfl
@[simp] theorem params_egRateShift : params.egRateShift = Sys2Proof.Machine.egRateShift := rfl
@[simp] theorem params_lfoStep : params.lfoStep = Sys2Proof.Machine.lfoStep := rfl
@[simp] theorem params_noiseStep : params.noiseStep = Sys2Proof.Machine.noiseStep := rfl
@[simp] theorem params_tickMode : params.tickMode = tickPulse := rfl
@[simp] theorem params_tables : params.tables = mpcTables := rfl

end Sys2Proof.Machine
end

