-- ==== Sys2Proof/Laws/FmOps.lean ====
section
/-! SUPPORT. What the FM operations on one operator do at the default configuration fields, said once: key-on and key-off
(R154, R157), an envelope tick (R183 to R189); for any fields, the derived fields (R156) and the
frames of a channel and an operator register write (R79, R95, R96). -/

namespace Sys2Proof.Machine

/-- An operator's increment is the one R154 and R183 name. -/
theorem EgRate.inc_eq (r : EgRate) (cnt : BitVec 32) : r.inc params cnt = incrementAt cnt r := by
  simp [EgRate.inc, incrementAt, Nat.shiftRight_eq_div_pow, Nat.and_two_pow_sub_one_eq_mod _ 3]

/-- The test of R183. -/
theorem EgRate.due_iff (r : EgRate) (cnt : BitVec 32) : r.due cnt = true ↔ DueAt cnt r := by
  simp [EgRate.due, DueAt, Nat.and_two_pow_sub_one_eq_mod]

/-- A rate raises a level by its increment when it is due, else not (R186 to R188). -/
theorem EgRate.rise_result (r : EgRate) (cnt : BitVec 32) (a : Nat) : RisesTo cnt r a (a + r.rise params cnt) := by
  unfold EgRate.rise
  constructor
  · intro h; rw [if_pos ((due_iff _ _).2 h), inc_eq]
  · intro h; rw [if_neg fun e => h ((due_iff _ _).1 e)]; rfl

/-- The attack formula of R154 and R185. -/
theorem attackLevel_eq (att inc : Nat) : attackLevel att inc = attackTarget att inc := by
  simp [attackLevel, attackTarget, asr]

/-- An attack lands at 0 or above: DECAY1 exactly when it reached 0 (R185). -/
theorem Operator.landAttack_eq (o : Operator) (a : Int) (h : o.eg = .attack) :
    o.landAttack a = { o with att := (max 0 a).toNat, eg := if a ≤ 0 then .decay1 else .attack } := by
  unfold Operator.landAttack
  by_cases hh : a ≤ 0
  · rw [if_pos hh, if_pos hh, max_eq_left hh]; rfl
  · rw [if_neg hh, if_neg hh, max_eq_right (not_le.mp hh).le, ← h]

/-- Everything `KEY_ON(o, src)` can do (R154). -/
theorem Operator.keyOn_result (cnt : BitVec 32) (src : BitVec 2) (o : Operator) :
    KeyOnResult cnt src o (o.keyOn params cnt src) := by
  unfold KeyOnResult Operator.keyOn
  split
  · rename_i h
    have : o.startNote params cnt = { o with
        phase := 0
        att := (max 0 (attackTarget o.att (incrementAt cnt o.rateAr))).toNat
        eg := if attackTarget o.att (incrementAt cnt o.rateAr) ≤ 0 then .decay1 else .attack } := by
      simp only [Operator.startNote, params_keyonStep, if_true]
      rw [landAttack_eq _ _ rfl]
      simp only [attackLevel_eq, EgRate.inc_eq]
    simp only [this, h]
    simp
  · rfl

/-- Everything `KEY_OFF(o, src)` can do (R157). -/
theorem Operator.keyOff_result (src : BitVec 2) (o : Operator) : KeyOffResult src o (o.keyOff src) := by
  unfold KeyOffResult Operator.keyOff
  split
  · simp
  · simp only
    cases he : o.eg <;> simp [EgState.aboveRelease] <;> (try split) <;> simp_all

/-- Everything an envelope tick can do to an operator (R183 to R189). -/
theorem Operator.egStep_result (cnt : BitVec 32) (o : Operator) : EnvelopeStepResult cnt o (o.egStep params cnt) := by
  unfold EnvelopeStepResult Operator.egStep
  cases he : o.eg <;> simp only
  · refine ⟨_, EgRate.rise_result _ _ _, ?_⟩
    unfold Operator.releaseStep Operator.fade
    by_cases hh : 1023 ≤ o.att + o.rateRr.rise params cnt
    · rw [if_pos hh, min_eq_right hh, if_pos hh]
    · rw [if_neg hh, min_eq_left (not_le.mp hh).le, if_neg hh, ← he]
  · refine ⟨_, EgRate.rise_result _ _ _, ?_⟩
    unfold Operator.decay2Step Operator.fade
    by_cases hh : 1023 ≤ o.att + o.rateD2r.rise params cnt
    · rw [if_pos hh, min_eq_right hh, if_pos hh]
    · rw [if_neg hh, min_eq_left (not_le.mp hh).le, if_neg hh, ← he]
  · refine ⟨_, EgRate.rise_result _ _ _, ?_⟩
    unfold Operator.decay1Step
    simp only
    by_cases hh : o.d1lAtt ≤ o.att + o.rateD1r.rise params cnt
    · rw [if_pos hh, if_pos hh]
    · rw [if_neg hh, if_neg hh, ← he]
  · unfold Operator.attackStep
    rw [landAttack_eq _ _ he]
    refine ⟨_, ?_, ?_, rfl⟩
    · intro h; rw [if_pos ((EgRate.due_iff _ _).2 h), attackLevel_eq, EgRate.inc_eq]
    · intro h; rw [if_neg fun e => h ((EgRate.due_iff _ _).1 e)]

/-- The recomputation of R156 gives the fields of R156. -/
theorem Operator.refreshEnvelope_derived (P : Params) (kc : BitVec 7) (o : Operator) :
    EnvelopeDerived P kc (o.refreshEnvelope P kc) := by
  refine ⟨?_, ?_, rfl, rfl, rfl, rfl, rfl⟩
  · simp [Operator.refreshEnvelope, ksrOf, Nat.shiftRight_eq_div_pow]
  · simp [Operator.refreshEnvelope, tlAttOf, Nat.shiftLeft_eq]

/-- A write in channel `c` reaches channel `c` alone. -/
theorem channelFrame_onChan (fm : Fm) (a : Byte) (c : BitVec 3) (f : Channel → Channel) :
    ChannelFrame fm ((fm.select a).onChan c f) a c :=
  ⟨rfl, fun _ h => Fm.chan_onChan_ne _ _ h⟩

/-- A write in operator slot `s` of channel `c` reaches that operator alone. -/
theorem operatorFrame_onOp (fm : Fm) (a : Byte) (c : BitVec 3) (s : BitVec 2) (f : Channel → Operator → Operator) :
    OperatorFrame fm ((fm.select a).onOp c s f) a c s :=
  ⟨channelFrame_onChan _ _ _ _, by simp [Fm.onOp, Fm.select, Fm.chan, Fm.onChan],
    fun _ h => Fm.op_onOp_slot_ne _ _ _ h⟩

/-- The address of a channel register (R95). -/
theorem channelAddress_eq (c : BitVec 3) :
    channelAddress 4 c = 0x20 + c.setWidth 8 ∧ channelAddress 5 c = 0x28 + c.setWidth 8
      ∧ channelAddress 6 c = 0x30 + c.setWidth 8 ∧ channelAddress 7 c = 0x38 + c.setWidth 8 := by
  revert c; decide

/-- The address of an operator register (R96). -/
theorem operatorAddress_eq (g : BitVec 3) (s : BitVec 2) (c : BitVec 3) :
    operatorAddress g s c = 0x20 * g.setWidth 8 + 8 * s.setWidth 8 + c.setWidth 8 := by
  revert g s c; decide

/-- Every channel of the reset engine is the reset channel (R23). -/
theorem Fm.chan_reset (c : BitVec 3) : Fm.reset.chan c = Channel.reset :=
  forall_channel (P := fun c => Fm.reset.chan c = Channel.reset) ⟨rfl, rfl, rfl, rfl, rfl, rfl, rfl, rfl⟩ c

/-- Every operator of the reset engine is the reset operator (R21). -/
theorem Fm.op_reset (c : BitVec 3) (s : BitVec 2) : Fm.reset.op c s = Operator.reset := by
  unfold Fm.op
  rw [Fm.chan_reset]
  exact forall_slot (P := fun s => Channel.reset.ops.get s = Operator.reset) ⟨rfl, rfl, rfl, rfl⟩ s

end Sys2Proof.Machine
end

