-- ==== Sys2Proof/Laws/Frequency.lean ====
section
/-! SUPPORT. What the default `KCI` and `PHASE_INC` of spec/40_fm_registers.md R155 say of `kc` and `kf` (log 7). -/

namespace Sys2Proof.Machine

/-- The key index of a used note code: octave, note and key fraction, in 1/64 semitone (R155). -/
theorem keyIndex_used (kc : BitVec 7) (kf : BitVec 6) (h : (kc.extractLsb 3 0).toNat % 4 ≠ 3) :
    keyIndex kc kf = 64 * (12 * (kc.extractLsb 6 4).toNat
      + ((kc.extractLsb 3 0).toNat - (kc.extractLsb 3 0).toNat / 4 : Nat) : Int) + kf.toNat := by
  have hc : ¬(kc.extractLsb' 0 4).toNat % 4 = 3 := h
  simp only [keyIndex, semitone, if_neg hc]
  push_cast
  rfl

/-- The key fraction raises the pitch like a pitch modulation of as many 1/64 semitones (R155, R213). -/
theorem phaseInc_fraction (kc : BitVec 7) (kf : BitVec 6) (pm : Int) (dt1 : BitVec 3) (dt2 : BitVec 2)
    (mul : BitVec 4) : phaseInc kc kf pm dt1 dt2 mul = phaseInc kc 0 (kf.toNat + pm) dt1 dt2 mul := by
  simp only [phaseInc, pitch, keyIndex]
  congr 5
  simp
  ring

end Sys2Proof.Machine
end

