-- ==== Sys2Proof/Laws/State.lean ====
section
/-! SUPPORT. One lemma for each field of `State` and each named update of it. -/

namespace Sys2Proof.Machine

variable (s : State)

/-! ### setFm -/

@[simp] theorem State.setFm_fm (x : Fm) : (s.setFm x).fm = x := rfl
@[simp] theorem State.setFm_pit (x : Fm) : (s.setFm x).pit = s.pit := rfl
@[simp] theorem State.setFm_piuH (x : Fm) : (s.setFm x).piuH = s.piuH := rfl
@[simp] theorem State.setFm_piuF (x : Fm) : (s.setFm x).piuF = s.piuF := rfl
@[simp] theorem State.setFm_net (x : Fm) : (s.setFm x).net = s.net := rfl
@[simp] theorem State.setFm_mpcMidiIn (x : Fm) : (s.setFm x).mpcMidiIn = s.mpcMidiIn := rfl
@[simp] theorem State.setFm_mpcHost (x : Fm) : (s.setFm x).mpcHost = s.mpcHost := rfl
@[simp] theorem State.setFm_mark (x : Fm) : (s.setFm x).mark = s.mark := rfl
@[simp] theorem State.setFm_pending (x : Fm) : (s.setFm x).pending = s.pending := rfl
@[simp] theorem State.setFm_trace (x : Fm) : (s.setFm x).trace = s.trace := rfl
@[simp] theorem State.setFm_draws (x : Fm) : (s.setFm x).draws = s.draws := rfl

/-! ### setPit -/

@[simp] theorem State.setPit_fm (x : Pit) : (s.setPit x).fm = s.fm := rfl
@[simp] theorem State.setPit_pit (x : Pit) : (s.setPit x).pit = x := rfl
@[simp] theorem State.setPit_piuH (x : Pit) : (s.setPit x).piuH = s.piuH := rfl
@[simp] theorem State.setPit_piuF (x : Pit) : (s.setPit x).piuF = s.piuF := rfl
@[simp] theorem State.setPit_net (x : Pit) : (s.setPit x).net = s.net := rfl
@[simp] theorem State.setPit_mpcMidiIn (x : Pit) : (s.setPit x).mpcMidiIn = s.mpcMidiIn := rfl
@[simp] theorem State.setPit_mpcHost (x : Pit) : (s.setPit x).mpcHost = s.mpcHost := rfl
@[simp] theorem State.setPit_mark (x : Pit) : (s.setPit x).mark = s.mark := rfl
@[simp] theorem State.setPit_pending (x : Pit) : (s.setPit x).pending = s.pending := rfl
@[simp] theorem State.setPit_trace (x : Pit) : (s.setPit x).trace = s.trace := rfl
@[simp] theorem State.setPit_draws (x : Pit) : (s.setPit x).draws = s.draws := rfl

/-! ### setNet -/

@[simp] theorem State.setNet_fm (x : Net) : (s.setNet x).fm = s.fm := rfl
@[simp] theorem State.setNet_pit (x : Net) : (s.setNet x).pit = s.pit := rfl
@[simp] theorem State.setNet_piuH (x : Net) : (s.setNet x).piuH = s.piuH := rfl
@[simp] theorem State.setNet_piuF (x : Net) : (s.setNet x).piuF = s.piuF := rfl
@[simp] theorem State.setNet_net (x : Net) : (s.setNet x).net = x := rfl
@[simp] theorem State.setNet_mpcMidiIn (x : Net) : (s.setNet x).mpcMidiIn = s.mpcMidiIn := rfl
@[simp] theorem State.setNet_mpcHost (x : Net) : (s.setNet x).mpcHost = s.mpcHost := rfl
@[simp] theorem State.setNet_mark (x : Net) : (s.setNet x).mark = s.mark := rfl
@[simp] theorem State.setNet_pending (x : Net) : (s.setNet x).pending = s.pending := rfl
@[simp] theorem State.setNet_trace (x : Net) : (s.setNet x).trace = s.trace := rfl
@[simp] theorem State.setNet_draws (x : Net) : (s.setNet x).draws = s.draws := rfl

/-! ### setPending -/

@[simp] theorem State.setPending_fm (x : List Access) : (s.setPending x).fm = s.fm := rfl
@[simp] theorem State.setPending_pit (x : List Access) : (s.setPending x).pit = s.pit := rfl
@[simp] theorem State.setPending_piuH (x : List Access) : (s.setPending x).piuH = s.piuH := rfl
@[simp] theorem State.setPending_piuF (x : List Access) : (s.setPending x).piuF = s.piuF := rfl
@[simp] theorem State.setPending_net (x : List Access) : (s.setPending x).net = s.net := rfl
@[simp] theorem State.setPending_mpcMidiIn (x : List Access) : (s.setPending x).mpcMidiIn = s.mpcMidiIn := rfl
@[simp] theorem State.setPending_mpcHost (x : List Access) : (s.setPending x).mpcHost = s.mpcHost := rfl
@[simp] theorem State.setPending_mark (x : List Access) : (s.setPending x).mark = s.mark := rfl
@[simp] theorem State.setPending_pending (x : List Access) : (s.setPending x).pending = x := rfl
@[simp] theorem State.setPending_trace (x : List Access) : (s.setPending x).trace = s.trace := rfl
@[simp] theorem State.setPending_draws (x : List Access) : (s.setPending x).draws = s.draws := rfl

/-! ### output -/

@[simp] theorem State.output_fm (e : Event) : (s.output e).fm = s.fm := rfl
@[simp] theorem State.output_pit (e : Event) : (s.output e).pit = s.pit := rfl
@[simp] theorem State.output_piuH (e : Event) : (s.output e).piuH = s.piuH := rfl
@[simp] theorem State.output_piuF (e : Event) : (s.output e).piuF = s.piuF := rfl
@[simp] theorem State.output_net (e : Event) : (s.output e).net = s.net := rfl
@[simp] theorem State.output_mpcMidiIn (e : Event) : (s.output e).mpcMidiIn = s.mpcMidiIn := rfl
@[simp] theorem State.output_mpcHost (e : Event) : (s.output e).mpcHost = s.mpcHost := rfl
@[simp] theorem State.output_mark (e : Event) : (s.output e).mark = s.mark := rfl
@[simp] theorem State.output_pending (e : Event) : (s.output e).pending = s.pending := rfl
@[simp] theorem State.output_trace (e : Event) : (s.output e).trace = s.trace ++ [e] := rfl
@[simp] theorem State.output_draws (e : Event) : (s.output e).draws = s.draws := rfl

/-! ### takeDraw -/

@[simp] theorem State.takeDraw_fm : (s.takeDraw).fm = s.fm := rfl
@[simp] theorem State.takeDraw_pit : (s.takeDraw).pit = s.pit := rfl
@[simp] theorem State.takeDraw_piuH : (s.takeDraw).piuH = s.piuH := rfl
@[simp] theorem State.takeDraw_piuF : (s.takeDraw).piuF = s.piuF := rfl
@[simp] theorem State.takeDraw_net : (s.takeDraw).net = s.net := rfl
@[simp] theorem State.takeDraw_mpcMidiIn : (s.takeDraw).mpcMidiIn = s.mpcMidiIn := rfl
@[simp] theorem State.takeDraw_mpcHost : (s.takeDraw).mpcHost = s.mpcHost := rfl
@[simp] theorem State.takeDraw_mark : (s.takeDraw).mark = s.mark := rfl
@[simp] theorem State.takeDraw_pending : (s.takeDraw).pending = s.pending := rfl
@[simp] theorem State.takeDraw_trace : (s.takeDraw).trace = s.trace := rfl
@[simp] theorem State.takeDraw_draws : (s.takeDraw).draws = s.draws + 1 := rfl

/-! ### refuse -/

@[simp] theorem State.refuse_fm (r : RefuseReason) : (s.refuse r).fm = s.fm := rfl
@[simp] theorem State.refuse_pit (r : RefuseReason) : (s.refuse r).pit = s.pit := rfl
@[simp] theorem State.refuse_piuH (r : RefuseReason) : (s.refuse r).piuH = s.piuH := rfl
@[simp] theorem State.refuse_piuF (r : RefuseReason) : (s.refuse r).piuF = s.piuF := rfl
@[simp] theorem State.refuse_net (r : RefuseReason) : (s.refuse r).net = s.net := rfl
@[simp] theorem State.refuse_mpcMidiIn (r : RefuseReason) : (s.refuse r).mpcMidiIn = s.mpcMidiIn := rfl
@[simp] theorem State.refuse_mpcHost (r : RefuseReason) : (s.refuse r).mpcHost = s.mpcHost := rfl
@[simp] theorem State.refuse_mark (r : RefuseReason) : (s.refuse r).mark = some r := rfl
@[simp] theorem State.refuse_pending (r : RefuseReason) : (s.refuse r).pending = s.pending := rfl
@[simp] theorem State.refuse_trace (r : RefuseReason) : (s.refuse r).trace = s.trace := rfl
@[simp] theorem State.refuse_draws (r : RefuseReason) : (s.refuse r).draws = s.draws := rfl

/-! ### setPiu -/

@[simp] theorem State.setPiu_fm (q : PiuId) (p : Piu) : (s.setPiu q p).fm = s.fm := by cases q <;> rfl
@[simp] theorem State.setPiu_pit (q : PiuId) (p : Piu) : (s.setPiu q p).pit = s.pit := by cases q <;> rfl
@[simp] theorem State.setPiu_net (q : PiuId) (p : Piu) : (s.setPiu q p).net = s.net := by cases q <;> rfl
@[simp] theorem State.setPiu_mpcMidiIn (q : PiuId) (p : Piu) : (s.setPiu q p).mpcMidiIn = s.mpcMidiIn := by cases q <;> rfl
@[simp] theorem State.setPiu_mpcHost (q : PiuId) (p : Piu) : (s.setPiu q p).mpcHost = s.mpcHost := by cases q <;> rfl
@[simp] theorem State.setPiu_mark (q : PiuId) (p : Piu) : (s.setPiu q p).mark = s.mark := by cases q <;> rfl
@[simp] theorem State.setPiu_pending (q : PiuId) (p : Piu) : (s.setPiu q p).pending = s.pending := by cases q <;> rfl
@[simp] theorem State.setPiu_trace (q : PiuId) (p : Piu) : (s.setPiu q p).trace = s.trace := by cases q <;> rfl
@[simp] theorem State.setPiu_draws (q : PiuId) (p : Piu) : (s.setPiu q p).draws = s.draws := by cases q <;> rfl
@[simp] theorem State.setPiu_h_piuH (p : Piu) : (s.setPiu .h p).piuH = p := rfl
@[simp] theorem State.setPiu_h_piuF (p : Piu) : (s.setPiu .h p).piuF = s.piuF := rfl
@[simp] theorem State.setPiu_f_piuF (p : Piu) : (s.setPiu .f p).piuF = p := rfl
@[simp] theorem State.setPiu_f_piuH (p : Piu) : (s.setPiu .f p).piuH = s.piuH := rfl
@[simp] theorem State.piu_h : s.piu .h = s.piuH := rfl
@[simp] theorem State.piu_f : s.piu .f = s.piuF := rfl
@[simp] theorem State.piu_setPiu (q : PiuId) (p : Piu) : (s.setPiu q p).piu q = p := by cases q <;> rfl
@[simp] theorem State.piu_setPiu_other (q : PiuId) (p : Piu) : (s.setPiu q p).piu q.other = s.piu q.other := by
  cases q <;> rfl

/-! ### setMpc -/

@[simp] theorem State.setMpc_fm (t : Stream) (m : Mpc) : (s.setMpc t m).fm = s.fm := by cases t <;> rfl
@[simp] theorem State.setMpc_pit (t : Stream) (m : Mpc) : (s.setMpc t m).pit = s.pit := by cases t <;> rfl
@[simp] theorem State.setMpc_piuH (t : Stream) (m : Mpc) : (s.setMpc t m).piuH = s.piuH := by cases t <;> rfl
@[simp] theorem State.setMpc_piuF (t : Stream) (m : Mpc) : (s.setMpc t m).piuF = s.piuF := by cases t <;> rfl
@[simp] theorem State.setMpc_net (t : Stream) (m : Mpc) : (s.setMpc t m).net = s.net := by cases t <;> rfl
@[simp] theorem State.setMpc_mark (t : Stream) (m : Mpc) : (s.setMpc t m).mark = s.mark := by cases t <;> rfl
@[simp] theorem State.setMpc_pending (t : Stream) (m : Mpc) : (s.setMpc t m).pending = s.pending := by cases t <;> rfl
@[simp] theorem State.setMpc_trace (t : Stream) (m : Mpc) : (s.setMpc t m).trace = s.trace := by cases t <;> rfl
@[simp] theorem State.setMpc_draws (t : Stream) (m : Mpc) : (s.setMpc t m).draws = s.draws := by cases t <;> rfl
@[simp] theorem State.setMpc_midiIn_mpcMidiIn (m : Mpc) : (s.setMpc .midiIn m).mpcMidiIn = m := rfl
@[simp] theorem State.setMpc_midiIn_mpcHost (m : Mpc) : (s.setMpc .midiIn m).mpcHost = s.mpcHost := rfl
@[simp] theorem State.setMpc_host_mpcHost (m : Mpc) : (s.setMpc .host m).mpcHost = m := rfl
@[simp] theorem State.setMpc_host_mpcMidiIn (m : Mpc) : (s.setMpc .host m).mpcMidiIn = s.mpcMidiIn := rfl
@[simp] theorem State.mpc_midiIn : s.mpc .midiIn = s.mpcMidiIn := rfl
@[simp] theorem State.mpc_host : s.mpc .host = s.mpcHost := rfl
@[simp] theorem State.mpc_setMpc (t : Stream) (m : Mpc) : (s.setMpc t m).mpc t = m := by cases t <;> rfl

end Sys2Proof.Machine
end

