-- ==== Sys2Proof/Laws/Ops.lean ====
section
/-! SUPPORT. For each shared operation one lemma that says everything it can do. -/

namespace Sys2Proof.Machine

/-- The callbacks a settled network raises (R326): HOST before FW, each on a transition alone. -/
def netReports (n : Net) : List Event :=
  (if (n.host == .high) = n.hostSeen then [] else [.callback .host (n.host == .high)])
    ++ (if n.fw = n.fwSeen then [] else [.callback .fw n.fw])

/-- The network after `NET_UPDATE()`. -/
def netAfter (s : State) : Net :=
  let n := s.net.refresh s.pit.out0 s.piuH s.piuF
  { n with hostSeen := n.host == .high, fwSeen := n.fw }

/-- What a report does: nothing, or the level remembered and one callback. -/
theorem State.report_eq (s : State) (l : Line) (b : Bool) :
    s.report l b = { s with net := s.net.setSeen l b
                            trace := s.trace ++ (if b = s.net.seen l then [] else [.callback l b]) } := by
  unfold State.report
  split
  · rename_i h
    subst h
    cases l <;> simp [Net.setSeen, Net.seen]
  · rfl

/-- Everything `NET_UPDATE()` does: it changes the network and appends its callbacks. -/
theorem State.netUpdate_eq (s : State) :
    s.netUpdate = { s with net := netAfter s
                           trace := s.trace ++ netReports (s.net.refresh s.pit.out0 s.piuH s.piuF) } := by
  simp only [State.netUpdate, State.report_eq, netAfter, netReports, Net.setSeen, Net.seen, State.setNet,
    List.append_assoc]
  congr

/-- Everything `PIU_UPDATE()` does: the pair at its fixed point, then `NET_UPDATE()`. -/
theorem State.piuUpdate_eq (s : State) :
    s.piuUpdate = State.netUpdate { s with piuH := (piuSettle s.piuH s.piuF).1, piuF := (piuSettle s.piuH s.piuF).2 } :=
  rfl

/-- A list of events is appended in order. -/
theorem State.foldl_output (es : List Event) (s : State) :
    es.foldl State.output s = { s with trace := s.trace ++ es } := by
  induction es generalizing s with
  | nil => simp
  | cons e es ih => simp [ih, State.output]

/-- Everything `MidiFeed` does: one classifier and the events it gives. -/
theorem State.midiFeedWith_eq (t : MpcTables) (s : State) (st : Stream) (b : Byte) :
    s.midiFeedWith t st b =
      { s.setMpc st ((s.mpc st).feed t st b).1 with trace := s.trace ++ ((s.mpc st).feed t st b).2 } := by
  simp [State.midiFeedWith, State.foldl_output]

/-- A turn of the handshake loop changes nothing exactly when every sample is its signal. -/
theorem handshakeStep_none (h f : Piu) :
    handshakeStep h f = none ↔
      f.stbAIn = strobe h f .f .a ∧ h.ackAIn = acknowledge h f .h .a
        ∧ h.stbBIn = strobe h f .h .b ∧ f.ackBIn = acknowledge h f .f .b := by
  unfold handshakeStep
  simp only [Piu.stbIn, Piu.ackIn, eq_comm (b := strobe h f .f .a), eq_comm (b := acknowledge h f .h .a),
    eq_comm (b := strobe h f .h .b), eq_comm (b := acknowledge h f .f .b)]
  by_cases a : strobe h f .f .a = f.stbAIn <;> by_cases b : acknowledge h f .h .a = h.ackAIn <;>
    by_cases c : strobe h f .h .b = h.stbBIn <;> by_cases d : acknowledge h f .f .b = f.ackBIn <;> simp [a, b, c, d]

end Sys2Proof.Machine
end

