-- ==== Sys2Proof/Laws/Handshake.lean ====
section
/-! SUPPORT. Everything the handshake propagation of `PIU_UPDATE` does, in closed form: what a pair of units is when
  the
loop of spec/43_piu.md R290 stops. -/

set_option linter.unusedSimpArgs false

namespace Sys2Proof.Machine

/-- The strobe into the receiver of a port rises, so that the byte is delivered (R290). -/
def delivered (h f : Piu) : Port → Bool
  | .a => linkActive h f .a && h.obfA && !f.stbAIn
  | .b => linkActive h f .b && f.obfB && !h.stbBIn

/-- The pair after port A is at rest: H sends, F receives. -/
def portASettled (h f : Piu) : Piu × Piu :=
  let full := f.ibfA || delivered h f .a
  let obf := h.obfA && !(linkActive h f .a && full && !h.ackAIn)
  ({ h with obfA := obf, ackAIn := linkActive h f .a && full },
    { f with ibfA := full, inA := if delivered h f .a then h.outA else f.inA, stbAIn := linkActive h f .a && obf })

/-- The pair after port B is at rest: F sends, H receives. -/
def portBSettled (h f : Piu) : Piu × Piu :=
  let full := h.ibfB || delivered h f .b
  let obf := f.obfB && !(linkActive h f .b && full && !f.ackBIn)
  ({ h with ibfB := full, inB := if delivered h f .b then f.outB else h.inB, stbBIn := linkActive h f .b && obf },
    { f with obfB := obf, ackBIn := linkActive h f .b && full })

/-- The links depend on the modes and directions alone. -/
theorem linkActive_congr {h f h' f' : Piu} (x : Port) (h1 : h'.strobed x = h.strobed x) (h2 : h'.dir x = h.dir x)
    (h3 : f'.strobed x = f.strobed x) (h4 : f'.dir x = f.dir x) : linkActive h' f' x = linkActive h f x := by
  cases x <;> simp [linkActive, Piu.strobedOut, Piu.strobedIn, h1, h2, h3, h4]

/-- One turn of the loop. -/
theorem settle_succ (n : Nat) (h f : Piu) : settleHandshake (n+1) h f = match handshakeStep h f with
    | some (h1, f1) => settleHandshake n h1 f1
    | none => (h, f) := rfl

/-- The loop brings port A to rest in at most three turns. -/
theorem settle_portA (n : Nat) (h f : Piu) :
    ∃ m, n ≤ m ∧ settleHandshake (n + 3) h f = settleHandshake m (portASettled h f).1 (portASettled h f).2 := by
  have hL : ∀ h' f' : Piu, h'.ma = h.ma → h'.dirA = h.dirA → f'.ma = f.ma → f'.dirA = f.dirA →
      linkActive h' f' .a = linkActive h f .a := by
    intro h' f' a b c d; simp [linkActive, Piu.strobedOut, Piu.strobedIn, Piu.strobed, Piu.dir, a, b, c, d]
  cases hl : linkActive h f .a <;> rw [hl] at hL <;>
  cases h1 : f.stbAIn <;> cases h2 : h.ackAIn <;> cases h3 : f.ibfA <;> cases h4 : h.obfA <;>
  first
    | (refine ⟨n + 3, by omega, ?_⟩
       have : portASettled h f = (h, f) := by
        simp only [portASettled, delivered, hl]; simp [h1, h2, h3, h4]
        cases h; cases f; simp_all
       rw [this])
    | (refine ⟨n + 2, by omega, ?_⟩
       show settleHandshake (n + 2 + 1) h f = _
       generalize n + 2 = k
       simp [settle_succ, handshakeStep, strobe, acknowledge, hl, hL, h1, h2, h3, h4, Piu.stbIn, Piu.ackIn,
         Piu.strobeEdge, Piu.ackEdge, Piu.setStbIn, Piu.setAckIn, Piu.setInp, Piu.setIbf, Piu.setObf, Piu.out,
         portASettled, delivered]
       try (cases h; cases f; simp_all; done)
       done)
    | (refine ⟨n + 1, by omega, ?_⟩
       show settleHandshake (n + 1 + 1 + 1) h f = _
       generalize n + 1 = k
       simp [settle_succ, handshakeStep, strobe, acknowledge, hl, hL, h1, h2, h3, h4, Piu.stbIn, Piu.ackIn,
         Piu.strobeEdge, Piu.ackEdge, Piu.setStbIn, Piu.setAckIn, Piu.setInp, Piu.setIbf, Piu.setObf, Piu.out,
         portASettled, delivered]
       try (cases h; cases f; simp_all; done)
       done)
    | (refine ⟨n, by omega, ?_⟩
       show settleHandshake (n + 1 + 1 + 1) h f = _
       simp [settle_succ, handshakeStep, strobe, acknowledge, hl, hL, h1, h2, h3, h4, Piu.stbIn, Piu.ackIn,
         Piu.strobeEdge, Piu.ackEdge, Piu.setStbIn, Piu.setAckIn, Piu.setInp, Piu.setIbf, Piu.setObf, Piu.out,
         portASettled, delivered])

/-- With port A at rest, the loop brings port B to rest in at most three turns. -/
theorem settle_portB (n : Nat) (h f : Piu)
    (hA : strobe h f .f .a = f.stbAIn ∧ acknowledge h f .h .a = h.ackAIn) :
    ∃ m, n ≤ m ∧ settleHandshake (n + 3) h f = settleHandshake m (portBSettled h f).1 (portBSettled h f).2 := by
  have hK : ∀ h' f' : Piu, h'.ma = h.ma → h'.dirA = h.dirA → f'.ma = f.ma → f'.dirA = f.dirA → linkActive h' f' .a =
    linkActive h f .a := by
    intro h' f' a b c d; simp [linkActive, Piu.strobedOut, Piu.strobedIn, Piu.strobed, Piu.dir, a, b, c, d]
  obtain ⟨hA1, hA2⟩ := hA
  simp only [strobe, acknowledge] at hA1 hA2
  have hL : ∀ h' f' : Piu, h'.mb = h.mb → h'.dirB = h.dirB → f'.mb = f.mb → f'.dirB = f.dirB →
      linkActive h' f' .b = linkActive h f .b := by
    intro h' f' a b c d; simp [linkActive, Piu.strobedOut, Piu.strobedIn, Piu.strobed, Piu.dir, a, b, c, d]
  cases hl : linkActive h f .b <;> rw [hl] at hL <;>
  cases h1 : h.stbBIn <;> cases h2 : f.ackBIn <;> cases h3 : h.ibfB <;> cases h4 : f.obfB <;>
  first
    | (refine ⟨n + 3, by omega, ?_⟩
       have : portBSettled h f = (h, f) := by
        simp only [portBSettled, delivered, hl]; simp [h1, h2, h3, h4]
        cases h; cases f; simp_all
       rw [this])
    | (refine ⟨n + 2, by omega, ?_⟩
       show settleHandshake (n + 2 + 1) h f = _
       generalize n + 2 = k
       simp [settle_succ, handshakeStep, strobe, acknowledge, hl, hL, h1, h2, h3, h4, Piu.stbIn, Piu.ackIn,
         Piu.strobeEdge, Piu.ackEdge, Piu.setStbIn, Piu.setAckIn, Piu.setInp, Piu.setIbf, Piu.setObf, Piu.out,
         portBSettled, delivered, hA1, hA2, hK]
       try (cases h; cases f; simp_all; done)
       done)
    | (refine ⟨n + 1, by omega, ?_⟩
       show settleHandshake (n + 1 + 1 + 1) h f = _
       generalize n + 1 = k
       simp [settle_succ, handshakeStep, strobe, acknowledge, hl, hL, h1, h2, h3, h4, Piu.stbIn, Piu.ackIn,
         Piu.strobeEdge, Piu.ackEdge, Piu.setStbIn, Piu.setAckIn, Piu.setInp, Piu.setIbf, Piu.setObf, Piu.out,
         portBSettled, delivered, hA1, hA2, hK]
       try (cases h; cases f; simp_all; done)
       done)
    | (refine ⟨n, by omega, ?_⟩
       show settleHandshake (n + 1 + 1 + 1) h f = _
       simp [settle_succ, handshakeStep, strobe, acknowledge, hl, hL, h1, h2, h3, h4, Piu.stbIn, Piu.ackIn,
         Piu.strobeEdge, Piu.ackEdge, Piu.setStbIn, Piu.setAckIn, Piu.setInp, Piu.setIbf, Piu.setObf, Piu.out,
         portBSettled, delivered, hA1, hA2, hK])

/-- Everything the loop does: both ports are brought to rest, whatever the pair was before. -/
theorem settleHandshake_eq (h f : Piu) :
    settleHandshake handshakeTurns h f = portBSettled (portASettled h f).1 (portASettled h f).2 := by
  obtain ⟨m, hm, e⟩ := settle_portA 5 h f
  have hL : linkActive (portASettled h f).1 (portASettled h f).2 .a = linkActive h f .a := linkActive_congr _ rfl rfl
    rfl rfl
  have hA : strobe (portASettled h f).1 (portASettled h f).2 .f .a = (portASettled h f).2.stbAIn
      ∧ acknowledge (portASettled h f).1 (portASettled h f).2 .h .a = (portASettled h f).1.ackAIn := by
    simp only [strobe, acknowledge, hL]; exact ⟨rfl, rfl⟩
  obtain ⟨m', hm', e'⟩ := settle_portB (m - 3) _ _ hA
  show settleHandshake (5 + 3) h f = _
  rw [e, show m = m - 3 + 3 by omega, e']
  generalize portASettled h f = p at *
  have hLA : linkActive (portBSettled p.1 p.2).1 (portBSettled p.1 p.2).2 .a = linkActive p.1 p.2 .a :=
    linkActive_congr _ rfl rfl rfl rfl
  have hLB : linkActive (portBSettled p.1 p.2).1 (portBSettled p.1 p.2).2 .b = linkActive p.1 p.2 .b :=
    linkActive_congr _ rfl rfl rfl rfl
  have hn : handshakeStep (portBSettled p.1 p.2).1 (portBSettled p.1 p.2).2 = none := by
    rw [handshakeStep_none]
    simp only [strobe, acknowledge, hLA, hLB] at hA ⊢
    exact ⟨hA.1.symm, hA.2.symm, rfl, rfl⟩
  cases m' with
  | zero => rfl
  | succ k => rw [settle_succ, hn]

/-- The pair after `PIU_UPDATE()`, in closed form. -/
def handshakeResult (h f : Piu) : Piu × Piu :=
  let fullA := f.ibfA || delivered h f .a
  let fullB := h.ibfB || delivered h f .b
  let obfA := h.obfA && !(linkActive h f .a && fullA && !h.ackAIn)
  let obfB := f.obfB && !(linkActive h f .b && fullB && !f.ackBIn)
  ({ h with
     obfA := obfA
     ackAIn := linkActive h f .a && fullA
     ibfB := fullB
     inB := if delivered h f .b then f.outB else h.inB
     stbBIn := linkActive h f .b && obfB },
    { f with
      obfB := obfB
      ackBIn := linkActive h f .b && fullB
      ibfA := fullA
      inA := if delivered h f .a then h.outA else f.inA
      stbAIn := linkActive h f .a && obfA })

/-- `PIU_UPDATE()` on the pair: the closed form, then both units' requests. -/
theorem piuSettle_eq (h f : Piu) :
    piuSettle h f =
      ((handshakeResult h f).1.refreshIntr (handshakeResult h f).1 (handshakeResult h f).2 .h,
        (handshakeResult h f).2.refreshIntr (handshakeResult h f).1 (handshakeResult h f).2 .f) := by
  have hb : linkActive (portASettled h f).1 (portASettled h f).2 .b = linkActive h f .b :=
    linkActive_congr _ rfl rfl rfl rfl
  have e : settleHandshake handshakeTurns h f = handshakeResult h f := by
    rw [settleHandshake_eq]
    simp only [portBSettled, handshakeResult, delivered, hb]
    rfl
  simp only [piuSettle, e]

end Sys2Proof.Machine
end

