-- ==== Sys2Proof/Laws/PerInstr.lean ====
section
/-! SUPPORT. The word an operation encodes to fits the width of its path, constructor by constructor
(spec/30_encoding.md R90 to R97, R120). -/

namespace Sys2Proof

/-- A word of the path's own width fits it. -/
theorem word_fits {p : Path} {n : Nat} (h : p.width = some n) (x : BitVec n) : (Access.mk p x.toNat).fits = true := by
  simp [Access.fits, h, x.isLt]

/-- A byte fits a path eight bits wide. -/
theorem byte_fits {p : Path} (h : p.width = some 8) (x : Byte) : (Access.mk p x.toNat).fits = true :=
  word_fits h x

/-- A word narrower than its path fits it. -/
theorem narrow_fits {p : Path} {n k : Nat} (h : p.width = some n) (hk : k ≤ n) (x : BitVec k) :
    (Access.mk p x.toNat).fits = true := by
  simp [Access.fits, h, Nat.lt_of_lt_of_le x.isLt (Nat.pow_le_pow_right (by decide) hk)]

/-- A host port write fits twelve bits (R90). -/
theorem hostWriteAt_fits (off : BitVec 4) (v : Byte) : (hostWriteAt off v).fits = true :=
  word_fits rfl (off ++ v)

/-- A host port read fits four bits (R90). -/
theorem hostReadAt_fits (off : BitVec 4) : (hostReadAt off).fits = true :=
  word_fits rfl off

/-- The FM pair fits sixteen bits (R79). -/
theorem fmWriteAt_fits (a v : Byte) : (fmWriteAt a v).fits = true :=
  word_fits rfl (a ++ v)

/-- A byte of a MIDI stream fits eight bits. -/
theorem midiByte_fits (s : Stream) (b : Byte) : (midiByte s b).fits = true :=
  byte_fits rfl b

namespace Laws.EncodedWordFits

/-- The record an operation encodes to fits its path. -/
def Statement (i : Instr) : Prop :=
  (encode i).fits = true

theorem outPiuHPa (v : Byte) : Statement (.outPiuHPa v) := hostWriteAt_fits _ _
theorem outPiuHPb (v : Byte) : Statement (.outPiuHPb v) := hostWriteAt_fits _ _
theorem outPiuHPc (v : Byte) : Statement (.outPiuHPc v) := hostWriteAt_fits _ _
theorem outPiuHMode (m : ModeWord) : Statement (.outPiuHMode m) := hostWriteAt_fits _ _
theorem outPiuHModeBidir (low : BitVec 6) : Statement (.outPiuHModeBidir low) := hostWriteAt_fits _ _
theorem outPiuHBsr (n : BitVec 3) (b : Bool) : Statement (.outPiuHBsr n b) := hostWriteAt_fits _ _
theorem outPitCnt0 (v : Byte) : Statement (.outPitCnt0 v) := hostWriteAt_fits _ _
theorem outPitCnt1 (v : Byte) : Statement (.outPitCnt1 v) := hostWriteAt_fits _ _
theorem outPitCnt2 (v : Byte) : Statement (.outPitCnt2 v) := hostWriteAt_fits _ _
theorem outPitLatch (sc : BitVec 2) : Statement (.outPitLatch sc) := hostWriteAt_fits _ _
theorem outPitControl (sc : BitVec 2) (rw : BitVec 2) (mode : BitVec 3) (bcd : Bool) :
    Statement (.outPitControl sc rw mode bcd) :=
  hostWriteAt_fits _ _
theorem outPitIgnored (low : BitVec 6) : Statement (.outPitIgnored low) := hostWriteAt_fits _ _
theorem outNetTcr (mirror : BitVec 2) (v : Byte) : Statement (.outNetTcr mirror v) := hostWriteAt_fits _ _
theorem outNetTsr (mirror : BitVec 2) (v : Byte) : Statement (.outNetTsr mirror v) := hostWriteAt_fits _ _
theorem inPiuHPa : Statement (.inPiuHPa) := hostReadAt_fits _
theorem inPiuHPb : Statement (.inPiuHPb) := hostReadAt_fits _
theorem inPiuHPc : Statement (.inPiuHPc) := hostReadAt_fits _
theorem inPiuHMode : Statement (.inPiuHMode) := hostReadAt_fits _
theorem inPitCnt0 : Statement (.inPitCnt0) := hostReadAt_fits _
theorem inPitCnt1 : Statement (.inPitCnt1) := hostReadAt_fits _
theorem inPitCnt2 : Statement (.inPitCnt2) := hostReadAt_fits _
theorem inPitCmd : Statement (.inPitCmd) := hostReadAt_fits _
theorem inNetTcr (mirror : BitVec 2) : Statement (.inNetTcr mirror) := hostReadAt_fits _
theorem inNetTsr (mirror : BitVec 2) : Statement (.inNetTsr mirror) := hostReadAt_fits _
theorem fwoutPa (v : Byte) : Statement (.fwoutPa v) := byte_fits rfl _
theorem fwoutPb (v : Byte) : Statement (.fwoutPb v) := byte_fits rfl _
theorem fwoutPc (v : Byte) : Statement (.fwoutPc v) := byte_fits rfl _
theorem fwoutMode (m : ModeWord) : Statement (.fwoutMode m) := byte_fits rfl _
theorem fwoutModeBidir (low : BitVec 6) : Statement (.fwoutModeBidir low) := byte_fits rfl _
theorem fwoutBsr (n : BitVec 3) (b : Bool) : Statement (.fwoutBsr n b) := byte_fits rfl _
theorem fwoutFmSel (v : Byte) : Statement (.fwoutFmSel v) := byte_fits rfl _
theorem fwoutFmData (v : Byte) : Statement (.fwoutFmData v) := byte_fits rfl _
theorem fwinPa : Statement (.fwinPa) := rfl
theorem fwinPb : Statement (.fwinPb) := rfl
theorem fwinPc : Statement (.fwinPc) := rfl
theorem fwinMode : Statement (.fwinMode) := rfl
theorem fwinFmSel : Statement (.fwinFmSel) := rfl
theorem fwinFmData : Statement (.fwinFmData) := rfl
theorem fmwTest (v : Byte) : Statement (.fmwTest v) := fmWriteAt_fits _ _
theorem fmwKon (c : BitVec 3) (m1 : Bool) (c1 : Bool) (m2 : Bool) (c2 : Bool) : Statement (.fmwKon c m1 c1 m2 c2) :=
  fmWriteAt_fits _ _
theorem fmwNoise (ne : Bool) (nfrq : BitVec 5) : Statement (.fmwNoise ne nfrq) := fmWriteAt_fits _ _
theorem fmwClka1 (hi : Byte) : Statement (.fmwClka1 hi) := fmWriteAt_fits _ _
theorem fmwClka2 (lo : BitVec 2) : Statement (.fmwClka2 lo) := fmWriteAt_fits _ _
theorem fmwClkb (v : Byte) : Statement (.fmwClkb v) := fmWriteAt_fits _ _
theorem fmwTimer (csm resetB resetA irqenB irqenA loadB loadA : Bool) :
    Statement (.fmwTimer csm resetB resetA irqenB irqenA loadB loadA) :=
  fmWriteAt_fits _ _
theorem fmwLfrq (v : Byte) : Statement (.fmwLfrq v) := fmWriteAt_fits _ _
theorem fmwDepth (selPmd : Bool) (d : BitVec 7) : Statement (.fmwDepth selPmd d) := fmWriteAt_fits _ _
theorem fmwCtW (ct : BitVec 2) (w : BitVec 2) : Statement (.fmwCtW ct w) := fmWriteAt_fits _ _
theorem fmwRlFbCon (c : BitVec 3) (r : Bool) (l : Bool) (fb : BitVec 3) (con : BitVec 3) :
    Statement (.fmwRlFbCon c r l fb con) :=
  fmWriteAt_fits _ _
theorem fmwKc (c : BitVec 3) (kc : BitVec 7) : Statement (.fmwKc c kc) := fmWriteAt_fits _ _
theorem fmwKf (c : BitVec 3) (kf : BitVec 6) : Statement (.fmwKf c kf) := fmWriteAt_fits _ _
theorem fmwPmsAms (c : BitVec 3) (pms : BitVec 3) (ams : BitVec 2) : Statement (.fmwPmsAms c pms ams) :=
  fmWriteAt_fits _ _
theorem fmwDt1Mul (s : BitVec 2) (c : BitVec 3) (dt1 : BitVec 3) (mul : BitVec 4) :
    Statement (.fmwDt1Mul s c dt1 mul) :=
  fmWriteAt_fits _ _
theorem fmwTl (s : BitVec 2) (c : BitVec 3) (tl : BitVec 7) : Statement (.fmwTl s c tl) := fmWriteAt_fits _ _
theorem fmwKsAr (s : BitVec 2) (c : BitVec 3) (ks : BitVec 2) (ar : BitVec 5) : Statement (.fmwKsAr s c ks ar) :=
  fmWriteAt_fits _ _
theorem fmwAmsD1r (s : BitVec 2) (c : BitVec 3) (amsEn : Bool) (d1r : BitVec 5) :
    Statement (.fmwAmsD1r s c amsEn d1r) :=
  fmWriteAt_fits _ _
theorem fmwDt2D2r (s : BitVec 2) (c : BitVec 3) (dt2 : BitVec 2) (d2r : BitVec 5) :
    Statement (.fmwDt2D2r s c dt2 d2r) :=
  fmWriteAt_fits _ _
theorem fmwD1lRr (s : BitVec 2) (c : BitVec 3) (d1l : BitVec 4) (rr : BitVec 4) : Statement (.fmwD1lRr s c d1l rr) :=
  fmWriteAt_fits _ _
theorem fmwUnassigned00 (v : Byte) : Statement (.fmwUnassigned00 v) := fmWriteAt_fits _ _
theorem fmwUnassigned02 (v : Byte) : Statement (.fmwUnassigned02 v) := fmWriteAt_fits _ _
theorem fmwUnassigned03 (v : Byte) : Statement (.fmwUnassigned03 v) := fmWriteAt_fits _ _
theorem fmwUnassigned04 (v : Byte) : Statement (.fmwUnassigned04 v) := fmWriteAt_fits _ _
theorem fmwUnassigned05 (v : Byte) : Statement (.fmwUnassigned05 v) := fmWriteAt_fits _ _
theorem fmwUnassigned06 (v : Byte) : Statement (.fmwUnassigned06 v) := fmWriteAt_fits _ _
theorem fmwUnassigned07 (v : Byte) : Statement (.fmwUnassigned07 v) := fmWriteAt_fits _ _
theorem fmwUnassigned09 (v : Byte) : Statement (.fmwUnassigned09 v) := fmWriteAt_fits _ _
theorem fmwUnassigned0A (v : Byte) : Statement (.fmwUnassigned0A v) := fmWriteAt_fits _ _
theorem fmwUnassigned0B (v : Byte) : Statement (.fmwUnassigned0B v) := fmWriteAt_fits _ _
theorem fmwUnassigned0C (v : Byte) : Statement (.fmwUnassigned0C v) := fmWriteAt_fits _ _
theorem fmwUnassigned0D (v : Byte) : Statement (.fmwUnassigned0D v) := fmWriteAt_fits _ _
theorem fmwUnassigned0E (v : Byte) : Statement (.fmwUnassigned0E v) := fmWriteAt_fits _ _
theorem fmwUnassigned13 (v : Byte) : Statement (.fmwUnassigned13 v) := fmWriteAt_fits _ _
theorem fmwUnassigned15 (v : Byte) : Statement (.fmwUnassigned15 v) := fmWriteAt_fits _ _
theorem fmwUnassigned16 (v : Byte) : Statement (.fmwUnassigned16 v) := fmWriteAt_fits _ _
theorem fmwUnassigned17 (v : Byte) : Statement (.fmwUnassigned17 v) := fmWriteAt_fits _ _
theorem fmwUnassigned1A (v : Byte) : Statement (.fmwUnassigned1A v) := fmWriteAt_fits _ _
theorem fmwUnassigned1C (v : Byte) : Statement (.fmwUnassigned1C v) := fmWriteAt_fits _ _
theorem fmwUnassigned1D (v : Byte) : Statement (.fmwUnassigned1D v) := fmWriteAt_fits _ _
theorem fmwUnassigned1E (v : Byte) : Statement (.fmwUnassigned1E v) := fmWriteAt_fits _ _
theorem fmwUnassigned1F (v : Byte) : Statement (.fmwUnassigned1F v) := fmWriteAt_fits _ _
theorem midiData (s : Stream) (data : BitVec 7) : Statement (.midiData s data) := midiByte_fits _ _
theorem midiNoteOff (s : Stream) (channel : BitVec 4) : Statement (.midiNoteOff s channel) := midiByte_fits _ _
theorem midiNoteOn (s : Stream) (channel : BitVec 4) : Statement (.midiNoteOn s channel) := midiByte_fits _ _
theorem midiPolyPressure (s : Stream) (channel : BitVec 4) : Statement (.midiPolyPressure s channel) :=
  midiByte_fits _ _
theorem midiControlChange (s : Stream) (channel : BitVec 4) : Statement (.midiControlChange s channel) :=
  midiByte_fits _ _
theorem midiProgramChange (s : Stream) (channel : BitVec 4) : Statement (.midiProgramChange s channel) :=
  midiByte_fits _ _
theorem midiChannelPressure (s : Stream) (channel : BitVec 4) : Statement (.midiChannelPressure s channel) :=
  midiByte_fits _ _
theorem midiPitchBend (s : Stream) (channel : BitVec 4) : Statement (.midiPitchBend s channel) := midiByte_fits _ _
theorem midiSysEx (s : Stream) : Statement (.midiSysEx s) := midiByte_fits _ _
theorem midiTimeCode (s : Stream) : Statement (.midiTimeCode s) := midiByte_fits _ _
theorem midiSongPosition (s : Stream) : Statement (.midiSongPosition s) := midiByte_fits _ _
theorem midiSongSelect (s : Stream) : Statement (.midiSongSelect s) := midiByte_fits _ _
theorem midiUndefinedF4 (s : Stream) : Statement (.midiUndefinedF4 s) := midiByte_fits _ _
theorem midiUndefinedF5 (s : Stream) : Statement (.midiUndefinedF5 s) := midiByte_fits _ _
theorem midiTuneRequest (s : Stream) : Statement (.midiTuneRequest s) := midiByte_fits _ _
theorem midiEndOfExclusive (s : Stream) : Statement (.midiEndOfExclusive s) := midiByte_fits _ _
theorem midiRealTime (s : Stream) (rt : BitVec 3) : Statement (.midiRealTime s rt) := midiByte_fits _ _
theorem sample : Statement (.sample) := rfl
theorem samples (n : Nat) : Statement (.samples n) := rfl
theorem tick : Statement (.tick) := rfl
theorem fmwPair (a : Byte) (v : Byte) : Statement (.fmwPair a v) := word_fits rfl _
theorem flow (s : Stream) (m : BitVec 3) : Statement (.flow s m) := narrow_fits rfl (by decide) _
theorem midiFeed (s : Stream) (b : Byte) : Statement (.midiFeed s b) := byte_fits rfl _
theorem reset : Statement (.reset) := rfl

end Laws.EncodedWordFits

end Sys2Proof
end

