-- ==== Sys2Proof/Laws/Run.lean ====
section
/-! SUPPORT. Runs of operations, one after the other, and the two cases of a tick (spec/42_interval_timer.md R247,
with the default PULSE, log 10). -/

namespace Sys2Proof.Machine

/-- A run goes on from the next state of its first operation, while the refusal mark is not set (R374). -/
theorem runOperations_cons {i : Instr} {is : List Instr} {s t : State} (hm : s.mark = none) (h : exec i s = .next t) :
    runOperations (i :: is) s = runOperations is t := by
  simp [runOperations, runOperation, hm, h]

/-- A run of two lists is the second's run from the end of the first's. -/
theorem runOperations_append {is js : List Instr} {s t : State} (h : runOperations is s = .next t) :
    runOperations (is ++ js) s = runOperations js t := by
  induction is generalizing s with
  | nil => simp [runOperations] at h; subst h; rfl
  | cons i is ih =>
    simp only [runOperations, List.cons_append] at h ⊢
    cases hr : runOperation i s with
    | next u => rw [hr] at h; simp only at h ⊢; exact ih h
    | fault f => rw [hr] at h; cases h
    | refused f => rw [hr] at h; cases h

/-- `SAMPLE n` leaves the refusal mark as it is. -/
theorem State.advanceSamples_mark (P : Params) (s : State) (n : Nat) : (State.advanceSamples P n s).mark = s.mark := by
  induction n generalizing s with
  | zero => rfl
  | succ n ih => exact ih _

/-- The last of `n + 1` samples comes after the first `n` (R411). -/
theorem State.advanceSamples_succ (P : Params) (n : Nat) (s : State) :
    State.advanceSamples P (n + 1) s = (State.advanceSamples P n s).advanceSample P := by
  induction n generalizing s with
  | zero => rfl
  | succ n ih => rw [State.advanceSamples, ih]; rfl

/-- A tick that does not reach 0 only counts (R247). -/
theorem State.pitTick_count (s : State) (h : s.pit.cnt0.run ≠ 1) :
    State.pitTickWith params.tickMode s
      = { s with pit := { s.pit with cnt0 := { s.pit.cnt0 with run := s.pit.cnt0.run - 1 } } } := by
  have : s.pit.cnt0.run - 1 ≠ 0 := by intro e; apply h; bv_omega
  simp only [State.pitTickWith, params_tickMode, tickPulse, if_neg this, List.foldl_nil]; rfl

/-- A tick that reaches 0 reloads the count and drives the output low, then high (R247). -/
theorem State.pitTick_pulse (s : State) (h : s.pit.cnt0.run = 1) :
    State.pitTickWith params.tickMode s = State.driveOut0 (State.driveOut0
      { s with pit := { s.pit with cnt0 := { s.pit.cnt0 with run := s.pit.cnt0.load } } } false) true := by
  simp only [State.pitTickWith, params_tickMode, tickPulse, h, sub_self, if_true]; rfl

end Sys2Proof.Machine
end

