-- ==== Sys2Proof/Laws/Step.lean ====
section
/-! SUPPORT. What a step can do, said once: the inversion of `step`, and for each unit what an operation makes of it. -/

namespace Sys2Proof.Machine

/-- `exec` is the machine for any configuration fields at the defaults (R7). -/
theorem exec_eq_execWith (i : Instr) (s : State) : exec i s = execWith params i s := by
  cases i <;> rfl

/-- A decoded operation runs as it does for any configuration fields, at the defaults. -/
theorem runOperation_eq (i : Instr) (s : State) : runOperation i s = runOperationWith params i s := by
  cases h : s.mark <;> simp [runOperation, runOperationWith, h, exec_eq_execWith]

/-- `step` is the step for any configuration fields at the defaults (R7). -/
theorem step_eq_stepWith (s : State) : step s = stepWith params s := by
  cases hp : s.pending with
  | nil => simp [step, stepWith, hp]
  | cons a rest => cases hd : decode a <;> simp [step, stepWith, hp, hd, runOperation_eq]

/-- A step that answers a next state did nothing, or ran one well-formed record's operation. -/
theorem stepWith_next {P : Params} {s t : State} (h : stepWith P s = .next t) :
    (s.pending = [] ∧ t = s)
      ∨ ∃ a rest i, s.pending = a :: rest ∧ decode a = .ok i ∧ execWith P i (s.setPending rest) = .next t := by
  unfold stepWith at h
  split at h
  · rename_i hp
    exact .inl ⟨hp, by injection h with h; exact h.symm⟩
  · rename_i a rest hp
    split at h
    · contradiction
    · rename_i i hd
      refine .inr ⟨a, rest, i, hp, hd, ?_⟩
      unfold runOperationWith at h
      split at h
      · split at h
        · exact h
        · contradiction
      · exact h

/-- The same of `step`. -/
theorem step_next {s t : State} (h : step s = .next t) :
    (s.pending = [] ∧ t = s)
      ∨ ∃ a rest i, s.pending = a :: rest ∧ decode a = .ok i ∧ exec i (s.setPending rest) = .next t := by
  simp only [exec_eq_execWith]
  exact stepWith_next (step_eq_stepWith s ▸ h)

/-- The reset engine's derived fields are those of the default configuration fields (R391). -/
theorem Fm.resetFor_params : Fm.resetFor params = Fm.reset := by
  rfl

@[simp] theorem State.resetOp_fm (P : Params) (s : State) : (s.resetOp P).fm = Fm.resetFor P := rfl
@[simp] theorem State.resetOp_pit (P : Params) (s : State) : (s.resetOp P).pit = Pit.reset := rfl
@[simp] theorem State.resetOp_piuH (P : Params) (s : State) : (s.resetOp P).piuH = Piu.reset := rfl
@[simp] theorem State.resetOp_piuF (P : Params) (s : State) : (s.resetOp P).piuF = Piu.reset := rfl
@[simp] theorem State.resetOp_net (P : Params) (s : State) : (s.resetOp P).net = Net.reset := rfl
@[simp] theorem State.resetOp_mpcMidiIn (P : Params) (s : State) : (s.resetOp P).mpcMidiIn = Mpc.reset := rfl
@[simp] theorem State.resetOp_mpcHost (P : Params) (s : State) : (s.resetOp P).mpcHost = Mpc.reset := rfl
@[simp] theorem State.resetOp_mark (P : Params) (s : State) : (s.resetOp P).mark = none := rfl
@[simp] theorem State.resetOp_pending (P : Params) (s : State) : (s.resetOp P).pending = s.pending := rfl
@[simp] theorem State.resetOp_trace (P : Params) (s : State) : (s.resetOp P).trace = s.trace := rfl
@[simp] theorem State.resetOp_draws (P : Params) (s : State) : (s.resetOp P).draws = s.draws := rfl

/-- `Reset()` at the defaults gives the reset values. -/
theorem State.resetOp_params (s : State) :
    s.resetOp params = { State.reset with pending := s.pending, trace := s.trace, draws := s.draws } :=
  rfl

section fields

variable (s : State)

@[simp] theorem State.netUpdate_fm : s.netUpdate.fm = s.fm := by rw [State.netUpdate_eq]
@[simp] theorem State.netUpdate_pit : s.netUpdate.pit = s.pit := by rw [State.netUpdate_eq]
@[simp] theorem State.netUpdate_piuH : s.netUpdate.piuH = s.piuH := by rw [State.netUpdate_eq]
@[simp] theorem State.netUpdate_piuF : s.netUpdate.piuF = s.piuF := by rw [State.netUpdate_eq]
@[simp] theorem State.netUpdate_mpcMidiIn : s.netUpdate.mpcMidiIn = s.mpcMidiIn := by rw [State.netUpdate_eq]
@[simp] theorem State.netUpdate_mpcHost : s.netUpdate.mpcHost = s.mpcHost := by rw [State.netUpdate_eq]
@[simp] theorem State.netUpdate_mark : s.netUpdate.mark = s.mark := by rw [State.netUpdate_eq]
@[simp] theorem State.netUpdate_pending : s.netUpdate.pending = s.pending := by rw [State.netUpdate_eq]
@[simp] theorem State.netUpdate_draws : s.netUpdate.draws = s.draws := by rw [State.netUpdate_eq]

@[simp] theorem State.piuUpdate_fm : s.piuUpdate.fm = s.fm := by simp [State.piuUpdate_eq]
@[simp] theorem State.piuUpdate_pit : s.piuUpdate.pit = s.pit := by simp [State.piuUpdate_eq]
@[simp] theorem State.piuUpdate_piuH : s.piuUpdate.piuH = (piuSettle s.piuH s.piuF).1 := by simp [State.piuUpdate_eq]
@[simp] theorem State.piuUpdate_piuF : s.piuUpdate.piuF = (piuSettle s.piuH s.piuF).2 := by simp [State.piuUpdate_eq]
@[simp] theorem State.piuUpdate_mpcMidiIn : s.piuUpdate.mpcMidiIn = s.mpcMidiIn := by simp [State.piuUpdate_eq]
@[simp] theorem State.piuUpdate_mpcHost : s.piuUpdate.mpcHost = s.mpcHost := by simp [State.piuUpdate_eq]
@[simp] theorem State.piuUpdate_mark : s.piuUpdate.mark = s.mark := by simp [State.piuUpdate_eq]
@[simp] theorem State.piuUpdate_pending : s.piuUpdate.pending = s.pending := by simp [State.piuUpdate_eq]
@[simp] theorem State.piuUpdate_draws : s.piuUpdate.draws = s.draws := by simp [State.piuUpdate_eq]

end fields

/-- What an operation on a data port, port C or a mode register does outside the parallel interface: it outputs and may
take a draw. -/
theorem State.piuRead_fm (s : State) (q : PiuId) (x : Port) : (s.piuRead q x).fm = s.fm := by
  unfold State.piuRead State.piuReadStrobed State.piuReadPlain
  split <;> (try split) <;> (try split) <;> simp [State.output, State.takeDraw]

theorem State.piuRead_pit (s : State) (q : PiuId) (x : Port) : (s.piuRead q x).pit = s.pit := by
  unfold State.piuRead State.piuReadStrobed State.piuReadPlain
  split <;> (try split) <;> (try split) <;> simp [State.output, State.takeDraw]

theorem State.piuWrite_fm (s : State) (q : PiuId) (x : Port) (v : Byte) : (s.piuWrite q x v).fm = s.fm := by
  unfold State.piuWrite
  split <;> simp

theorem State.piuWrite_pit (s : State) (q : PiuId) (x : Port) (v : Byte) : (s.piuWrite q x v).pit = s.pit := by
  unfold State.piuWrite
  split <;> simp

theorem State.pitTickWith_fm (m : TickMode) (s : State) : (s.pitTickWith m).fm = s.fm := by
  have h : ∀ (ls : List Bool) (u : State), (ls.foldl State.driveOut0 u).fm = u.fm := by
    intro ls
    induction ls with
    | nil => intro u; rfl
    | cons l ls ih => intro u; rw [List.foldl_cons, ih]; simp [State.driveOut0]
  simp [State.pitTickWith, h]

theorem State.midiFeedWith_fm (T : MpcTables) (s : State) (st : Stream) (b : Byte) :
    (s.midiFeedWith T st b).fm = s.fm := by
  rw [State.midiFeedWith_eq]; simp

/-- What an operation makes of the FM engine: nothing, a select, a register write, both, some samples, or the reset. -/
inductive FmMoves (P : Params) : Fm → Fm → Prop where
  | refl (fm : Fm) : FmMoves P fm fm
  | select (fm : Fm) (a : Byte) : FmMoves P fm (fm.select a)
  | write (fm : Fm) (r : FmReg) : FmMoves P fm (fm.write P r)
  | pair (fm : Fm) (a : Byte) (r : FmReg) : FmMoves P fm ((fm.select a).write P r)
  | samples (fm : Fm) (n : Nat) : FmMoves P fm ((Fm.advance P)^[n] fm)
  | reset (fm : Fm) : FmMoves P fm (Fm.resetFor P)

theorem State.advanceSamples_fm (P : Params) (n : Nat) (s : State) :
    (State.advanceSamples P n s).fm = (Fm.advance P)^[n] s.fm := by
  induction n generalizing s with
  | zero => rfl
  | succ n ih => simp [State.advanceSamples, ih, State.advanceSample, State.output]

/-- The event is a byte that a read returned. -/
def Event.IsRead (e : Event) : Prop :=
  (∃ o v, e = .portRead o v) ∨ ∃ r v, e = .fwRead r v

/-- What an operation makes of the block: one of the shared operations. `w` says that the operation is well formed. -/
inductive Moves (P : Params) (w : Bool) (s : State) : State → Prop where
  | same : Moves P w s s
  | fm (x : Fm) (h : FmMoves P s.fm x) : Moves P w s (s.setFm x)
  | output (e : Event) (h : e.IsRead) : Moves P w s (s.output e)
  | draw (e : Event) (h : e.IsRead) : Moves P w s (s.takeDraw.output e)
  | refuse (r : RefuseReason) : Moves P w s (s.refuse r)
  | latch (sc : BitVec 2) : Moves P w s (s.setPit (s.pit.onSelected sc Counter.latchNow))
  | control (sc rw : BitVec 2) (mode : BitVec 3) (bcd : Bool) (h : w = true → rw ≠ 0) :
    Moves P w s (s.setPit (s.pit.onSelected sc fun c => c.control rw mode bcd))
  | pitWrite (n : CounterId) (v : Byte) : Moves P w s (s.pitWrite n v)
  | pitRead (n : CounterId) : Moves P w s (s.pitRead n)
  | tick : Moves P w s (s.pitTickWith P.tickMode)
  | piuWrite (q : PiuId) (x : Port) (v : Byte) : Moves P w s (s.piuWrite q x v)
  | piuRead (q : PiuId) (x : Port) : Moves P w s (s.piuRead q x)
  | piuWriteC (q : PiuId) (v : Byte) : Moves P w s (s.piuWriteC q v)
  | piuSetMode (q : PiuId) (m : ModeWord) (h : w = true → m.wellFormed = true) : Moves P w s (s.piuSetMode q m)
  | piuBitSet (q : PiuId) (n : BitVec 3) (b : Bool) : Moves P w s (s.piuBitSet q n b)
  | writeTcr (v : Byte) : Moves P w s (s.writeTcr v)
  | midiFeed (st : Stream) (b : Byte) : Moves P w s (s.midiFeedWith P.tables st b)
  | setFlow (st : Stream) (m : BitVec 3) : Moves P w s (s.setFlow st m)
  | samples (n : Nat) : Moves P w s (State.advanceSamples P n s)
  | reset : Moves P w s (s.resetOp P)

/-- A well-formed control command has a byte order (R241). -/
theorem control_rw (sc rw : BitVec 2) (h : controlWellFormed sc rw = true) : rw ≠ 0 := by
  revert sc rw; decide

/-- Every operation is one of the shared operations, for any configuration fields (R7). -/
theorem execWith_moves {P : Params} {i : Instr} {s t : State} (h : execWith P i s = .next t) :
    Moves P i.wellFormed s t := by
  cases i <;> injection h with h <;> subst h
  case outPiuHMode m => exact .piuSetMode _ _ id
  case outPitControl sc rw mode bcd => exact .control _ _ _ _ (fun hw => control_rw sc rw hw)
  case fwoutMode m => exact .piuSetMode _ _ id
  case fmwTest v => exact .fm _ (.pair _ _ (.test v))
  case fmwKon c m1 c1 m2 c2 => exact .fm _ (.pair _ _ (.kon c m1 c1 m2 c2))
  case fmwNoise a b => exact .fm _ (.pair _ _ (.noise a b))
  case fmwClka1 a => exact .fm _ (.pair _ _ (.clka1 a))
  case fmwClka2 a => exact .fm _ (.pair _ _ (.clka2 a))
  case fmwClkb a => exact .fm _ (.pair _ _ (.clkb a))
  case fmwTimer a b c d e f g => exact .fm _ (.pair _ _ (.timer a b c d e f g))
  case fmwLfrq a => exact .fm _ (.pair _ _ (.lfrq a))
  case fmwDepth a b => exact .fm _ (.pair _ _ (.depth a b))
  case fmwCtW a b => exact .fm _ (.pair _ _ (.ctW a b))
  case fmwRlFbCon a b c d e => exact .fm _ (.pair _ _ (.rlFbCon a b c d e))
  case fmwKc a b => exact .fm _ (.pair _ _ (.kc a b))
  case fmwKf a b => exact .fm _ (.pair _ _ (.kf a b))
  case fmwPmsAms a b c => exact .fm _ (.pair _ _ (.pmsAms a b c))
  case fmwDt1Mul a b c d => exact .fm _ (.pair _ _ (.dt1Mul a b c d))
  case fmwTl a b c => exact .fm _ (.pair _ _ (.tl a b c))
  case fmwKsAr a b c d => exact .fm _ (.pair _ _ (.ksAr a b c d))
  case fmwAmsD1r a b c d => exact .fm _ (.pair _ _ (.amsD1r a b c d))
  case fmwDt2D2r a b c d => exact .fm _ (.pair _ _ (.dt2D2r a b c d))
  case fmwD1lRr a b c d => exact .fm _ (.pair _ _ (.d1lRr a b c d))
  case outPiuHPa | outPiuHPb | fwoutPa | fwoutPb => exact .piuWrite ..
  case outPiuHPc | fwoutPc => exact .piuWriteC ..
  case outPiuHModeBidir | fwoutModeBidir => exact .refuse _
  case outPiuHBsr | fwoutBsr => exact .piuBitSet ..
  case outPitCnt0 | outPitCnt1 | outPitCnt2 => exact .pitWrite ..
  case outPitLatch => exact .latch _
  case outPitIgnored | outNetTsr => exact .same
  case outNetTcr => exact .writeTcr _
  case inPiuHPa | inPiuHPb | fwinPa | fwinPb => exact .piuRead ..
  case inPiuHPc | inPiuHMode | inPitCmd => exact .draw _ (.inl ⟨_, _, rfl⟩)
  case fwinPc | fwinMode | fwinFmSel => exact .draw _ (.inr ⟨_, _, rfl⟩)
  case inPitCnt0 | inPitCnt1 | inPitCnt2 => exact .pitRead _
  case inNetTcr | inNetTsr => exact .output _ (.inl ⟨_, _, rfl⟩)
  case fwinFmData => exact .output _ (.inr ⟨_, _, rfl⟩)
  case fwoutFmSel | fmwUnassigned00 | fmwUnassigned02 | fmwUnassigned03 | fmwUnassigned04 | fmwUnassigned05 |
      fmwUnassigned06 | fmwUnassigned07 | fmwUnassigned09 | fmwUnassigned0A | fmwUnassigned0B | fmwUnassigned0C |
      fmwUnassigned0D | fmwUnassigned0E | fmwUnassigned13 | fmwUnassigned15 | fmwUnassigned16 | fmwUnassigned17 |
      fmwUnassigned1A | fmwUnassigned1C | fmwUnassigned1D | fmwUnassigned1E |
      fmwUnassigned1F => exact .fm _ (.select ..)
  case fwoutFmData => exact .fm _ (.write ..)
  case midiData | midiNoteOff | midiNoteOn | midiPolyPressure | midiControlChange | midiProgramChange |
      midiChannelPressure | midiPitchBend | midiSysEx | midiTimeCode | midiSongPosition | midiSongSelect |
      midiUndefinedF4 | midiUndefinedF5 | midiTuneRequest | midiEndOfExclusive | midiRealTime |
      midiFeed => exact .midiFeed ..
  case sample => exact .samples 1
  case samples => exact .samples _
  case tick => exact .tick
  case fmwPair => exact .fm _ (.pair ..)
  case flow => exact .setFlow ..
  case reset => exact .reset

/-- The same of `exec`. -/
theorem exec_moves {i : Instr} {s t : State} (h : exec i s = .next t) : Moves params i.wellFormed s t :=
  execWith_moves (exec_eq_execWith i s ▸ h)

/-- Every operation makes one of the moves of the FM engine. -/
theorem execWith_fmMoves {P : Params} {i : Instr} {s t : State} (h : execWith P i s = .next t) :
    FmMoves P s.fm t.fm := by
  cases execWith_moves h with
  | fm _ hx => exact hx
  | tick => rw [State.pitTickWith_fm]; exact .refl _
  | piuWrite => rw [State.piuWrite_fm]; exact .refl _
  | piuRead => rw [State.piuRead_fm]; exact .refl _
  | midiFeed => rw [State.midiFeedWith_fm]; exact .refl _
  | samples n => rw [State.advanceSamples_fm]; exact .samples _ n
  | reset => exact .reset _
  | piuWriteC | piuSetMode | piuBitSet | writeTcr | setFlow =>
    simp only [State.piuWriteC, State.piuSetMode, State.piuBitSet, State.writeTcr, State.setFlow, State.piuUpdate_fm,
      State.netUpdate_fm, State.setPiu_fm, State.setMpc_fm, State.setNet_fm]
    exact .refl _
  | _ => exact .refl _

/-- A property of the FM engine that selects, register writes and samples keep and the reset engine has is kept by every
step, for any configuration fields. -/
theorem stepWith_keeps_fm {P : Params} {Q : Fm → Prop} (hsel : ∀ fm a, Q fm → Q (fm.select a))
    (hwrite : ∀ fm r, Q fm → Q (fm.write P r)) (hadv : ∀ fm, Q fm → Q (fm.advance P)) (hreset : Q (Fm.resetFor P))
    {s t : State} (hs : Q s.fm) (h : stepWith P s = .next t) : Q t.fm := by
  rcases stepWith_next h with ⟨-, rfl⟩ | ⟨a, rest, i, -, -, he⟩
  · exact hs
  · have hm := execWith_fmMoves he
    rw [State.setPending_fm] at hm
    revert hm hs
    generalize s.fm = x
    generalize t.fm = y
    intro hx hm
    cases hm with
    | refl => exact hx
    | select => exact hsel _ _ hx
    | write => exact hwrite _ _ hx
    | pair => exact hwrite _ _ (hsel _ _ hx)
    | samples n =>
      clear he h
      induction n generalizing x with
      | zero => exact hx
      | succ n ih => exact ih _ (hadv _ hx)
    | reset => exact hreset

/-- The same of `step`, at the default configuration fields. -/
theorem step_keeps_fm {Q : Fm → Prop} (hsel : ∀ fm a, Q fm → Q (fm.select a))
    (hwrite : ∀ fm r, Q fm → Q (fm.write params r)) (hadv : ∀ fm, Q fm → Q (fm.advance params)) (hreset : Q Fm.reset)
    {s t : State} (hs : Q s.fm) (h : step s = .next t) : Q t.fm :=
  stepWith_keeps_fm hsel hwrite hadv (Fm.resetFor_params ▸ hreset) hs (step_eq_stepWith s ▸ h)

end Sys2Proof.Machine
end

