-- ==== Sys2Proof/Tests/Slice0.lean ====
section
/-! SUPPORT. The model's own tests: the well-formedness checks, one word of every constructor written out bit by bit from
spec/30_encoding.md, vectors of spec/95_test_vectors.md and of the rules' own examples, each over one operation, and for
every statement with hypotheses a witness that meets them. -/

namespace Sys2Proof.Tests

open Sys2Proof Sys2Proof.Machine

/-! ### Helpers -/

/-- The state after one operation. -/
def after (i : Instr) (s : State) : State :=
  match exec i s with
  | .next t => t
  | .fault _ => s
  | .refused _ => s

/-- What one operation appends to the outputs of a state that has none. -/
def outputs (i : Instr) (s : State) : List Event :=
  (after i { s with trace := [] }).trace

/-- The state after reset with another FM engine. -/
def withFm (f : Fm → Fm) : State :=
  { State.reset with fm := f State.reset.fm }

/-- The state after reset with operator 0 (M1) of channel 0 changed. -/
def withOp (f : Operator → Operator) : State :=
  withFm fun fm => fm.onOp 0 0 fun _ o => f o

/-- The state after reset with counter 0 changed. -/
def withCnt0 (f : Counter → Counter) : State :=
  { State.reset with pit := { State.reset.pit with cnt0 := f State.reset.pit.cnt0 } }

/-- The state after reset with one MIDI-IN classifier state, accumulator and flow. -/
def withMpc (q : Nat) (acc : List Byte) (flow : BitVec 3) : State :=
  { State.reset with mpcMidiIn := ⟨q, acc, flow⟩ }

/-- PIU-H with group A strobed output, group B strobed input and both port C nibbles output: mode byte 0xA6. -/
def piuHStrobed : Piu :=
  { Piu.reset with ma := 1, mb := true, dirA := false, dirB := true, dirCh := false, dirCl := false }

/-- PIU-F with group A strobed input, group B strobed output and both port C nibbles output: mode byte 0xB4. -/
def piuFStrobed : Piu :=
  { Piu.reset with ma := 1, mb := true, dirA := true, dirB := false, dirCh := false, dirCl := false }

/-- The two units linked both ways, as spec/95_test_vectors.md P1 sets them up. -/
def linked : State :=
  { State.reset with piuH := piuHStrobed, piuF := piuFStrobed }

/-- The state after reset with another TCR. -/
def withTcr (v : Byte) : State :=
  { State.reset with net := { Net.reset with tcr := v } }

/-! ### Well-formedness refuses what is another row's encoding -/

theorem test_wf_mode_word_ma2_refused : Instr.wellFormed (.outPiuHMode ⟨2, true, true, false, true, true⟩) = false := by
  decide

theorem test_wf_mode_word_ma3_refused : Instr.wellFormed (.fwoutMode ⟨3, false, false, true, false, false⟩) = false := by
  decide

theorem test_wf_mode_word_ma0_ma1 :
    Instr.wellFormed (.outPiuHMode ⟨0, true, true, false, true, true⟩) = true
      ∧ Instr.wellFormed (.fwoutMode ⟨1, true, true, false, true, true⟩) = true := by decide

theorem test_wf_latch_sc3_refused : Instr.wellFormed (.outPitLatch 3) = false := by decide

theorem test_wf_control_sc3_refused : Instr.wellFormed (.outPitControl 3 3 2 false) = false := by decide

theorem test_wf_control_rw0_refused : Instr.wellFormed (.outPitControl 0 0 2 false) = false := by decide

theorem test_wf_control_boundary :
    Instr.wellFormed (.outPitControl 0 1 0 false) = true ∧ Instr.wellFormed (.outPitControl 2 3 7 true) = true
      ∧ Instr.wellFormed (.outPitLatch 2) = true := by decide

/-! ### Decoding: one word of each row, written from spec/30_encoding.md -/

/-- Every record of the list decodes to the operation beside it. -/
def decodesTo (l : List (Access × Instr)) : Bool :=
  l.all fun p => match decode p.1 with
    | .ok i => i == p.2
    | .error _ => false

/-- R90, R105, R115: offset in bits 11:8, byte in bits 7:0. -/
theorem test_decode_host_writes :
    decodesTo [(⟨.hostWrite, 0b0000_0101_1010⟩, .outPiuHPa 0x5A),
      (⟨.hostWrite, 0b0001_1010_0101⟩, .outPiuHPb 0xA5),
      (⟨.hostWrite, 0b0010_1111_0000⟩, .outPiuHPc 0xF0),
      (⟨.hostWrite, 0b0011_1010_0110⟩, .outPiuHMode ⟨1, false, false, true, true, false⟩),
      (⟨.hostWrite, 0b0011_1001_1001⟩, .outPiuHMode ⟨0, true, true, false, false, true⟩),
      (⟨.hostWrite, 0b0011_1100_0001⟩, .outPiuHModeBidir 0b000001),
      (⟨.hostWrite, 0b0011_1110_0000⟩, .outPiuHModeBidir 0b100000),
      (⟨.hostWrite, 0b0011_0000_1101⟩, .outPiuHBsr 6 true),
      (⟨.hostWrite, 0b0011_0111_1110⟩, .outPiuHBsr 7 false)] = true := by decide

/-- R90, R105: the timer and the network. -/
theorem test_decode_host_writes_timer_network :
    decodesTo [(⟨.hostWrite, 0b0100_0011_0100⟩, .outPitCnt0 0x34),
      (⟨.hostWrite, 0b0101_0001_0010⟩, .outPitCnt1 0x12),
      (⟨.hostWrite, 0b0110_1000_0001⟩, .outPitCnt2 0x81),
      (⟨.hostWrite, 0b0111_10_00_0000⟩, .outPitLatch 2),
      (⟨.hostWrite, 0b0111_01_00_1111⟩, .outPitLatch 1),
      (⟨.hostWrite, 0b0111_00_11_010_0⟩, .outPitControl 0 3 2 false),
      (⟨.hostWrite, 0b0111_10_01_011_1⟩, .outPitControl 2 1 3 true),
      (⟨.hostWrite, 0b0111_11_000101⟩, .outPitIgnored 5),
      (⟨.hostWrite, 0b1010_1100_0001⟩, .outNetTcr 2 0xC1),
      (⟨.hostWrite, 0b1101_1111_1111⟩, .outNetTsr 1 0xFF)] = true := by decide

/-- R90: the sixteen offsets of a host read. -/
theorem test_decode_host_reads :
    decodesTo [(⟨.hostRead, 0⟩, .inPiuHPa), (⟨.hostRead, 1⟩, .inPiuHPb), (⟨.hostRead, 2⟩, .inPiuHPc),
      (⟨.hostRead, 3⟩, .inPiuHMode), (⟨.hostRead, 4⟩, .inPitCnt0), (⟨.hostRead, 5⟩, .inPitCnt1),
      (⟨.hostRead, 6⟩, .inPitCnt2), (⟨.hostRead, 7⟩, .inPitCmd), (⟨.hostRead, 8⟩, .inNetTcr 0),
      (⟨.hostRead, 11⟩, .inNetTcr 3), (⟨.hostRead, 12⟩, .inNetTsr 0), (⟨.hostRead, 14⟩, .inNetTsr 2)] = true := by
  decide

/-- R92: the firmware registers, by name. -/
theorem test_decode_firmware_accesses :
    decodesTo [(⟨.fwWrite .pa, 0x11⟩, .fwoutPa 0x11), (⟨.fwWrite .pb, 0xA5⟩, .fwoutPb 0xA5),
      (⟨.fwWrite .pc, 0x22⟩, .fwoutPc 0x22),
      (⟨.fwWrite .mode, 0b1011_0100⟩, .fwoutMode ⟨1, true, false, true, false, false⟩),
      (⟨.fwWrite .mode, 0b1111_1111⟩, .fwoutModeBidir 0b111111),
      (⟨.fwWrite .mode, 0b0000_1001⟩, .fwoutBsr 4 true),
      (⟨.fwWrite .fmSel, 0x28⟩, .fwoutFmSel 0x28), (⟨.fwWrite .fmData, 0x4A⟩, .fwoutFmData 0x4A),
      (⟨.fwRead .pa, 0⟩, .fwinPa), (⟨.fwRead .pb, 0⟩, .fwinPb), (⟨.fwRead .pc, 0⟩, .fwinPc),
      (⟨.fwRead .mode, 0⟩, .fwinMode), (⟨.fwRead .fmSel, 0⟩, .fwinFmSel), (⟨.fwRead .fmData, 0⟩, .fwinFmData)]
      = true := by decide

/-- R97: the system registers of the FM space; ignored bits set to 1 are dropped. -/
theorem test_decode_fm_system :
    decodesTo [(⟨.fmWrite, 0x0102⟩, .fmwTest 0x02), (⟨.fmWrite, 0b00001000_1_0101_011⟩, .fmwKon 3 true false true false),
      (⟨.fmWrite, 0b00001000_0_1010_111⟩, .fmwKon 7 false true false true),
      (⟨.fmWrite, 0b00001111_1_11_11101⟩, .fmwNoise true 29), (⟨.fmWrite, 0x10FF⟩, .fmwClka1 0xFF),
      (⟨.fmWrite, 0b00010001_111111_10⟩, .fmwClka2 2), (⟨.fmWrite, 0x12C7⟩, .fmwClkb 0xC7),
      (⟨.fmWrite, 0b00010100_1_1_0_1_0_1_0_1⟩, .fmwTimer true false true false true false true),
      (⟨.fmWrite, 0b00010100_0_0_1_0_1_0_1_0⟩, .fmwTimer false true false true false true false),
      (⟨.fmWrite, 0x18A5⟩, .fmwLfrq 0xA5), (⟨.fmWrite, 0b00011001_1_1000000⟩, .fmwDepth true 0x40),
      (⟨.fmWrite, 0b00011001_0_1111111⟩, .fmwDepth false 0x7F), (⟨.fmWrite, 0b00011011_10_1111_01⟩, .fmwCtW 2 1)]
      = true := by decide

/-- R95 to R97: the channel and operator registers; ignored bits set to 1 are dropped. -/
theorem test_decode_fm_channels_operators :
    decodesTo [(⟨.fmWrite, 0b00100_101_1_0_110_011⟩, .fmwRlFbCon 5 true false 6 3),
      (⟨.fmWrite, 0b00101_110_1_1001010⟩, .fmwKc 6 0x4A), (⟨.fmWrite, 0b00110_001_101101_11⟩, .fmwKf 1 0x2D),
      (⟨.fmWrite, 0b00111_011_1_101_11_10⟩, .fmwPmsAms 3 5 2),
      (⟨.fmWrite, 0b010_01_100_1_110_1010⟩, .fmwDt1Mul 1 4 6 10), (⟨.fmWrite, 0b011_10_111_1_1100001⟩, .fmwTl 2 7 0x61),
      (⟨.fmWrite, 0b100_11_010_11_1_10101⟩, .fmwKsAr 3 2 3 0x15),
      (⟨.fmWrite, 0b101_00_001_1_11_01110⟩, .fmwAmsD1r 0 1 true 0x0E),
      (⟨.fmWrite, 0b110_01_110_10_1_00011⟩, .fmwDt2D2r 1 6 2 3),
      (⟨.fmWrite, 0b111_10_000_1001_0110⟩, .fmwD1lRr 2 0 9 6)] = true := by decide

/-- R98: the twenty-two unassigned addresses. -/
theorem test_decode_fm_unassigned :
    decodesTo [(⟨.fmWrite, 0x0055⟩, .fmwUnassigned00 0x55), (⟨.fmWrite, 0x0255⟩, .fmwUnassigned02 0x55),
      (⟨.fmWrite, 0x0355⟩, .fmwUnassigned03 0x55), (⟨.fmWrite, 0x0455⟩, .fmwUnassigned04 0x55),
      (⟨.fmWrite, 0x0555⟩, .fmwUnassigned05 0x55), (⟨.fmWrite, 0x0655⟩, .fmwUnassigned06 0x55),
      (⟨.fmWrite, 0x0755⟩, .fmwUnassigned07 0x55), (⟨.fmWrite, 0x0955⟩, .fmwUnassigned09 0x55),
      (⟨.fmWrite, 0x0A55⟩, .fmwUnassigned0A 0x55), (⟨.fmWrite, 0x0B55⟩, .fmwUnassigned0B 0x55),
      (⟨.fmWrite, 0x0C55⟩, .fmwUnassigned0C 0x55), (⟨.fmWrite, 0x0D55⟩, .fmwUnassigned0D 0x55),
      (⟨.fmWrite, 0x0E55⟩, .fmwUnassigned0E 0x55), (⟨.fmWrite, 0x1355⟩, .fmwUnassigned13 0x55),
      (⟨.fmWrite, 0x1555⟩, .fmwUnassigned15 0x55), (⟨.fmWrite, 0x1655⟩, .fmwUnassigned16 0x55),
      (⟨.fmWrite, 0x1755⟩, .fmwUnassigned17 0x55), (⟨.fmWrite, 0x1A55⟩, .fmwUnassigned1A 0x55),
      (⟨.fmWrite, 0x1C55⟩, .fmwUnassigned1C 0x55), (⟨.fmWrite, 0x1D55⟩, .fmwUnassigned1D 0x55),
      (⟨.fmWrite, 0x1E55⟩, .fmwUnassigned1E 0x55), (⟨.fmWrite, 0x1F55⟩, .fmwUnassigned1F 0x55)] = true := by decide

/-- R120, R352, R353: the MIDI bytes. -/
theorem test_decode_midi :
    decodesTo [(⟨.midi .midiIn, 0x3C⟩, .midiData .midiIn 0x3C), (⟨.midi .host, 0x85⟩, .midiNoteOff .host 5),
      (⟨.midi .midiIn, 0x92⟩, .midiNoteOn .midiIn 2), (⟨.midi .midiIn, 0xA3⟩, .midiPolyPressure .midiIn 3),
      (⟨.midi .host, 0xB0⟩, .midiControlChange .host 0), (⟨.midi .midiIn, 0xCF⟩, .midiProgramChange .midiIn 15),
      (⟨.midi .midiIn, 0xD1⟩, .midiChannelPressure .midiIn 1), (⟨.midi .midiIn, 0xE8⟩, .midiPitchBend .midiIn 8),
      (⟨.midi .host, 0xF0⟩, .midiSysEx .host), (⟨.midi .host, 0xF1⟩, .midiTimeCode .host),
      (⟨.midi .host, 0xF2⟩, .midiSongPosition .host), (⟨.midi .host, 0xF3⟩, .midiSongSelect .host),
      (⟨.midi .host, 0xF4⟩, .midiUndefinedF4 .host), (⟨.midi .host, 0xF5⟩, .midiUndefinedF5 .host),
      (⟨.midi .host, 0xF6⟩, .midiTuneRequest .host), (⟨.midi .host, 0xF7⟩, .midiEndOfExclusive .host),
      (⟨.midi .midiIn, 0xF8⟩, .midiRealTime .midiIn 0), (⟨.midi .midiIn, 0xFF⟩, .midiRealTime .midiIn 7)] = true := by
  decide

/-- R122: the operations with a name; the flow mask is in the low three bits. -/
theorem test_decode_operations :
    decodesTo [(⟨.sample, 0⟩, .sample), (⟨.samples, 65536⟩, .samples 65536), (⟨.tick, 0⟩, .tick),
      (⟨.fmPair, 0x28_4A⟩, .fmwPair 0x28 0x4A), (⟨.flow .midiIn, 0b101⟩, .flow .midiIn 5),
      (⟨.midiOp .host, 0x90⟩, .midiFeed .host 0x90), (⟨.reset, 0⟩, .reset)] = true := by decide

/-- A record whose word does not fit its path is refused by name (log 22). -/
theorem test_decode_refuses_wide_words :
    decode ⟨.hostWrite, 0x1000⟩ = .error (.wordTooWide .hostWrite)
      ∧ decode ⟨.fwRead .pa, 1⟩ = .error (.wordOnWordlessPath (.fwRead .pa)) := by decide

/-- The host's numbering of a table word, by the narrowest format that holds it (log 2). -/
theorem test_decode_table_words :
    decodeTableWord 8 0x6 = some .inPitCnt2 ∧ decodeTableWord 8 0x92 = some (.midiNoteOn .midiIn 2)
      ∧ decodeTableWord 16 0x734 = some (.outPitControl 0 3 2 false)
      ∧ decodeTableWord 16 0x9A15 = some (.fmwKsAr 3 2 0 0x15) := by decide

/-- `step` runs the operation of the word it is given. -/
theorem test_step_runs_fetch_word :
    step (State.reset.withFetchWord 16 0x90D5) = exec (.fmwKsAr 2 0 3 0x15) State.reset := by rfl

/-! ### FM register vectors (spec/40_fm_registers.md, spec/95_test_vectors.md 2.2) -/

/-- R133, R172: TEST bit 1 clears the LFO phase; the select latch holds the address (R79). -/
theorem test_fmw_test :
    ((after (.fmwTest 2) (withFm fun fm => { fm with lfoPhase := 9 })).fm.lfoPhase,
      (after (.fmwTest 0xFD) (withFm fun fm => { fm with lfoPhase := 9 })).fm.lfoPhase) = (0, 9) := by decide

/-- M1 of channel 0 with AR 31 at reset attenuation: an instant attack (R154, 95 section 2.3). -/
def instantOp (o : Operator) : Operator :=
  { o with ar := 31, rateAr := ⟨0, 17⟩, phase := 77 }

/-- R134, R154: an instant attack reaches 0, so DECAY1 at once; the phase restarts. -/
theorem test_fmw_kon_instant :
    (let o := (after (.fmwKon 0 true false false false) (withOp instantOp)).fm.op 0 0
     (o.att, o.eg, o.key, o.phase)) = (0, .decay1, 1, 0) := by decide

/-- R154: AR 30 takes the attack step at once (1023 to 511) and stays in ATTACK (95 section 2.3, fast attack); R157: a
slot whose bit is 0 and whose key is 0 stays. -/
theorem test_fmw_kon_fast :
    (let t := after (.fmwKon 0 true false false false) (withOp fun o => { o with rateAr := ⟨0, 16⟩ })
     ((t.fm.op 0 0).att, (t.fm.op 0 0).eg, (t.fm.op 0 1).eg)) = (511, .attack, .off) := by decide

/-- R157: a key-off releases; with both sources held, it only drops its own (95 section 2.3). -/
theorem test_fmw_kon_off :
    ((let o := (after (.fmwKon 0 false false false false) (withOp fun o => { o with key := 1, eg := .decay2 })).fm.op 0 0
      (o.key, o.eg)),
     (let o := (after (.fmwKon 0 false false false false) (withOp fun o => { o with key := 3, eg := .decay2 })).fm.op 0 0
      (o.key, o.eg))) = ((0, .release), (2, .decay2)) := by decide

/-- R135: 0x9F gives NE 1, NFRQ 31. -/
theorem test_fmw_noise :
    (let t := after (.fmwNoise true 31) State.reset; (t.fm.ne, t.fm.nfrq, t.fm.sel)) = (true, 31, 0x0F) := by decide

/-- R136, R137: timer A's ten bits in two writes, 0x3FC then 0x3FF. -/
theorem test_fmw_clka :
    ((after (.fmwClka1 0xFF) State.reset).fm.ta,
      (after (.fmwClka2 3) (withFm fun fm => { fm with ta := 0x3FC })).fm.ta) = (0x3FC, 0x3FF) := by decide

/-- R138. -/
theorem test_fmw_clkb : (after (.fmwClkb 0xF0) State.reset).fm.tb = 0xF0 := by decide

/-- R139: with TA 0x3FF, 0x15 starts timer A with count 1; written again to a running timer, no restart. -/
theorem test_fmw_timer_load :
    ((after (.fmwTimer false false true false true false true) (withFm fun fm => { fm with ta := 0x3FF })).fm.taCnt,
      (after (.fmwTimer false false false false true false true)
        (withFm fun fm => { fm with loadA := true, taCnt := 9 })).fm.taCnt) = (1, 9) := by decide

/-- R139, R222: resetting flag A drops the request; without the reset bit the flag stays. -/
theorem test_fmw_timer_flags :
    ((after (.fmwTimer false false true false false false false)
        (withFm fun fm => { fm with flagA := true, irq := true })).fm.irq,
      (after (.fmwTimer false false false false true false false)
        (withFm fun fm => { fm with flagA := true, irq := true, loadA := true })).fm.flagA) = (false, true) := by decide

/-- R140, R142. -/
theorem test_fmw_lfrq_ctw :
    ((after (.fmwLfrq 0xC0) State.reset).fm.lfrq,
      (let t := after (.fmwCtW 2 1) State.reset; (t.fm.ct, t.fm.lfoWave))) = (0xC0, 2, 1) := by decide

/-- R141: 0xC0 sets PMD to 0x40 and leaves AMD. -/
theorem test_fmw_depth :
    (let t := after (.fmwDepth true 0x40) (withFm fun fm => { fm with amd := 0x7F }); (t.fm.pmd, t.fm.amd))
      = (0x40, 0x7F) := by decide

/-- R143: bit 7 is the right side, `rl` bit 1. -/
theorem test_fmw_rl_fb_con :
    (let c := (after (.fmwRlFbCon 2 true false 5 3) State.reset).fm.chan 2; (c.rl, c.fb, c.con)) = (2, 5, 3) := by
  decide

/-- R155 (R144's example): key code 0x4A is octave 4, note code 10, the 9th note; `kf` counts 1/64 semitones. -/
theorem test_key_index :
    [keyIndex 0x4A 0, keyIndex 0x4A 63, keyIndex 0x7E 1, keyIndex 0x10 0] = [3584, 3647, 6081, 768]
      ∧ ((after (.fmwKc 0 0x4A) State.reset).fm.chan 0).kci = 3584 := by decide

/-- R144, R156: key code 0x4A with KS 3 on slot 0 gives ksr 18, with KS 0 on slot 1 gives 2. -/
theorem test_fmw_kc :
    (let t := after (.fmwKc 0 0x4A) (withOp fun o => { o with ks := 3 })
     ((t.fm.op 0 0).ksr, (t.fm.op 0 1).ksr, (t.fm.chan 0).kc)) = (18, 2, 0x4A) := by decide

/-- R145: the increment is that of the new fraction, with the open tables (R155). -/
theorem test_fmw_kf :
    ((after (.fmwKf 3 0x3F) State.reset).fm.chan 3).kf = 0x3F
      ∧ ((after (.fmwKf 3 0x3F) State.reset).fm.op 3 1).freq = phaseInc 0 0x3F 0 0 0 0 := by
  constructor <;> rfl

/-- R146. -/
theorem test_fmw_pms_ams :
    (let c := (after (.fmwPmsAms 7 5 2) State.reset).fm.chan 7; (c.pms, c.ams)) = (5, 2) := by decide

/-- R147: DT1 and MUL of one operator, with its increment recomputed. -/
theorem test_fmw_dt1_mul :
    let o := (after (.fmwDt1Mul 1 4 6 10) State.reset).fm.op 4 1
    o.dt1 = 6 ∧ o.mul = 10 ∧ o.freq = phaseInc 0 0 0 6 0 10 := by
  refine ⟨rfl, rfl, rfl⟩

/-- R148: TL 0x7F gives 1016 (95 section 2.2), for that operator alone. -/
theorem test_fmw_tl :
    (let t := after (.fmwTl 0 0 0x7F) State.reset; ((t.fm.op 0 0).tlAtt, (t.fm.op 0 1).tlAtt)) = (1016, 0) := by decide

/-- R149, R156: AR 1 gives shift 11, row 2; KS 3 with AR 30 and key code 0x7E gives ksr 31 and the instant attack. -/
theorem test_fmw_ks_ar :
    (((after (.fmwKsAr 0 0 0 1) State.reset).fm.op 0 0).rateAr,
      (let o := (after (.fmwKsAr 0 0 3 30) (withFm fun fm => fm.onChan 0 fun c => { c with kc := 0x7E })).fm.op 0 0
       (o.ksr, o.rateAr))) = (⟨11, 2⟩, 31, ⟨0, 17⟩) := by decide

/-- R150: D1R 10 gives rate index 52, shift 6, row 0; the AM enable is stored. -/
theorem test_fmw_ams_d1r :
    (let o := (after (.fmwAmsD1r 0 0 true 10) State.reset).fm.op 0 0; (o.amsEn, o.d1r, o.rateD1r))
      = (true, 10, ⟨6, 0⟩) := by decide

/-- R151: DT2 and D2R 31 (rate index 94: shift 0, row 16). -/
theorem test_fmw_dt2_d2r :
    (let o := (after (.fmwDt2D2r 3 6 2 31) State.reset).fm.op 6 3; (o.dt2, o.d2r, o.rateD2r)) = (2, 31, ⟨0, 16⟩) := by
  decide

/-- R152: D1L 15 is 992, not 960; RR 15 gives rate index 94 (95 section 2.2). -/
theorem test_fmw_d1l_rr :
    (((after (.fmwD1lRr 0 0 15 0) State.reset).fm.op 0 0).d1lAtt,
      (let o := (after (.fmwD1lRr 0 0 1 15) State.reset).fm.op 0 0; (o.d1lAtt, o.rateRr))) = (992, 32, ⟨0, 16⟩) := by
  decide

/-- R153: an unassigned address leaves every field but the select latch (log 3). -/
theorem test_fmw_unassigned :
    after (.fmwUnassigned02 0x55) State.reset = { State.reset with fm := { State.reset.fm with sel := 0x02 } } := by
  rfl

/-- R130, R131: the data write goes to the selected address; the pair is both writes (R79). -/
theorem test_fm_select_data_pair :
    ((after (.fwoutFmData 0x7F) (withFm fun fm => { fm with sel := 0x60 })).fm.op 0 0).tl = 0x7F
      ∧ ((after (.fmwPair 0x28 0x4A) State.reset).fm.chan 0).kc = 0x4A
      ∧ (after (.fwoutFmSel 0x28) State.reset).fm.sel = 0x28 := by decide

/-- R93, R132: the status byte of both flags; FM_SEL reads as a drawn byte (R92). -/
theorem test_fm_reads :
    outputs .fwinFmData (withFm fun fm => { fm with flagA := true, flagB := true }) = [.fwRead .fmData 3]
      ∧ outputs .fwinFmSel State.reset = [.fwRead .fmSel (Config.draw 0)] := by
  constructor <;> rfl

/-- R158 (95 section 1.1): KC 0x4A and AR 31, KS 3 written in either order give the same channel. -/
theorem test_derived_fields_order :
    (after (.fmwKsAr 0 0 3 31) (after (.fmwKc 0 0x4A) State.reset)).fm.chan 0
      = (after (.fmwKc 0 0x4A) (after (.fmwKsAr 0 0 3 31) State.reset)).fm.chan 0 := by
  rfl

/-! ### The FM sample (spec/41_fm_generator.md, spec/95_test_vectors.md 2.3 to 2.8) -/

/-- R197: the values of 95 section 2.4. -/
theorem test_operator_output :
    [sinTab 0, sinTab 1, sinTab 128, sinTab 255, sinTab 384, sinTab 512, sinTab 768, sinTab 12]
        = [4274, 3462, 254, 0, 258, 4275, 1, 1898]
      ∧ [opOut 0 0, opOut 1 0, opOut 128 0, opOut 256 0, opOut 384 0, opOut 511 0, opOut 512 0, opOut 767 0, opOut 12 0]
        = [25, 75, 5792, 8168, 5760, 25, -25, -8168, 625]
      ∧ [opOut 256 1, opOut 256 8, opOut 256 32, opOut 256 64, opOut 256 128, opOut 256 256, opOut 256 512, opOut 768 831,
          opOut 256 832] = [8080, 7492, 5776, 4084, 2042, 510, 31, -1, 0] := by decide

/-- R195: `att` 0, TL 0x10, AMS-EN 1, AMS 2, LFA 100 give 328. -/
theorem test_envelope_sum :
    envOf 100 { Channel.reset with ams := 2 } { Operator.reset with att := 0, tlAtt := 128, amsEn := true } = 328 := by
  decide

/-- R198: `fb` 7 with a sum of 50 gives 6; `fb` 0 gives 0. -/
theorem test_feedback : (feedbackOffset 7 50, feedbackOffset 0 50, feedbackOffset 1 (-1)) = (6, 0, -1) := by decide

/-- Channel 0 audible on both sides with four loud operators, at a connection and with M1's last output. -/
def loud (con : BitVec 3) (m1 : Int) : State :=
  withFm fun fm => fm.onChan 0 fun c =>
    { c with rl := 3, con := con, fbCur := m1, ops := c.ops.map fun o => { o with att := 0, eg := .decay1 } }

/-- 95 section 2.5: the first sample of algorithm 7, of algorithm 0, and algorithm 7 with M1 at 25. -/
theorem test_sample_algorithms :
    (outputs .sample (loud 7 0), outputs .sample (loud 0 0), outputs .sample (loud 7 25))
      = ([.frame 75 75], [.frame 625 625], [.frame 100 100]) := by decide

/-- R210: one clamp of the sum (95 section 2.6). -/
theorem test_mix :
    mix 0 (State.reset.fm.chans.map fun c => ({ c with rl := 3 }, 8168)) = 32767
      ∧ mix 1 (State.reset.fm.chans.map fun c => ({ c with rl := 3 }, -8168)) = -32768
      ∧ mix 1 (State.reset.fm.chans.map fun c => ({ c with rl := 1 }, 25)) = 0 := by decide

/-- R180: three samples to an EG tick; the second and the third. -/
theorem test_envelope_divider :
    (((withFm fun fm => { fm with egDiv := 1 }).fm.egDivide params).egDiv,
      ((withFm fun fm => { fm with egDiv := 2 }).fm.egDivide params).egCnt)
      = (2, 1) := by decide

/-- R185 (95 section 2.3): fast attack 511 to 255, 1 to 0 with DECAY1; slow attack 1023 to 959 when due, else held. -/
theorem test_envelope_attack :
    let fast := { Operator.reset with eg := .attack, rateAr := ⟨0, 16⟩ }
    let slow := { Operator.reset with eg := .attack, rateAr := ⟨4, 2⟩ }
    (({ fast with att := 511 }.egStep params 1).att, ({ fast with att := 1 }.egStep params 9).att,
      ({ fast with att := 1 }.egStep params 9).eg, (slow.egStep params 48).att, (slow.egStep params 64).att,
      (slow.egStep params 47).att)
      = (255, 0, .decay1, 959, 1023, 1023) := by decide

/-- R186 to R188 (95 section 2.3): decay to sustain at 32, D1L 0 at the first tick, release to OFF. -/
theorem test_envelope_decay_release :
    let d := { Operator.reset with eg := .decay1, rateD1r := ⟨0, 16⟩, d1lAtt := 32 }
    let r := { Operator.reset with eg := .release, rateRr := ⟨0, 16⟩, att := 1016 }
    ((({ d with att := 24 }.egStep params 4).att, ({ d with att := 24 }.egStep params 4).eg),
      ({ d with att := 16 }.egStep params 3).eg,
      ({ d with att := 0, d1lAtt := 0, rateD1r := ⟨0, 18⟩ }.egStep params 1).eg,
      (r.egStep params 128).att, (r.egStep params 128).eg)
      = ((32, .decay2), .decay1, .decay2, 1023, .off) := by decide

/-- R175 (95 section 2.7): the steps, and the register's first two shifts at NFRQ 31. -/
theorem test_noise :
    [noiseStep 0, noiseStep 15, noiseStep 29, noiseStep 30, noiseStep 31] = [4096, 7710, 43690, 65536, 65536]
      ∧ ((withFm fun fm => { fm with nfrq := 31 }).fm.noiseAdvance params).noiseRng = 0x10000
      ∧ noiseShift 0x10000 = 0x18000 ∧ noiseShift 0x1FC00 = 0x1FE00 := by decide

/-- R174 (95 section 2.7): the waveform values of saw, square and triangle. -/
theorem test_lfo_waveforms :
    [lfoWaveAt 0 0, lfoWaveAt 0 127, lfoWaveAt 0 128, lfoWaveAt 0 255, lfoWaveAt 1 0, lfoWaveAt 1 128, lfoWaveAt 2 0,
        lfoWaveAt 2 64, lfoWaveAt 2 128, lfoWaveAt 2 192, lfoWaveAt 2 255]
      = [(255, 0), (128, 127), (127, -127), (0, 0), (255, 128), (0, -128), (255, 0), (127, 127), (0, 0), (128, -127),
        (254, -1)] := by decide

/-- R171 to R174 (95 section 2.7): at depth 127 and phase 255 of the triangle, a = 252 and p = 0. -/
theorem test_lfo_depth :
    (let fm := (withFm fun fm => { fm with lfoPhase := 255, lfoWave := 2, amd := 127, pmd := 127 }).fm.lfoAdvance params
     (fm.lfa, fm.lfp)) = (252, 0) := by decide

/-- R173 (95 section 2.7): LFRQ 0xFF steps at the eighth sample, from phase 1 with fraction 15 by two. -/
theorem test_lfo_step :
    (lfoStep 0xFF 0 6 0, lfoStep 0xFF 0 7 0, lfoStep 0xFF 1 7 15) = ((0, 7, 0), (1, 0, 15), (3, 0, 14)) := by decide

/-- R213: with no LFO pitch offset, a sample adds the stored increment to the phase. -/
theorem test_sample_phase :
    ((after .sample (withOp fun o => { o with freq := 0x10000, phase := 0xFFFF8000 })).fm.op 0 0).phase = 0x8000 := by
  decide

/-- R220 to R223 (95 section 2.8): timer A at count 1 sets its flag and the request, reloads, and asks for CSM. -/
theorem test_sample_timer_a :
    (let fm := (after .sample (withFm fun fm =>
        { fm with ta := 0x3FF, taCnt := 1, loadA := true, irqenA := true, csm := true })).fm
     (fm.flagA, fm.irq, fm.taCnt, fm.csmReq)) = (true, true, 1, 2) := by decide

/-- R221, R223: timer B with no enable sets no flag; a CSM request keys every operator on with source 0b10. -/
theorem test_sample_timer_b_csm :
    (let fm := (after .sample (withFm fun fm => { fm with tb := 0xFF, tbCnt := 1, loadB := true, csmReq := 2 })).fm
     (fm.flagB, fm.tbCnt, fm.csmReq, (fm.op 7 3).key)) = (false, 16, 1, 2) := by decide

/-- R411: two samples at once, two frames. -/
theorem test_samples : outputs (.samples 2) State.reset = [.frame 0 0, .frame 0 0] := by decide

/-! ### The interval timer (spec/95_test_vectors.md 1.6, 2.9) -/

/-- R240: a latch takes the running count, and only the first one. -/
theorem test_out_pit_latch :
    (let c := (after (.outPitLatch 0) (withCnt0 fun c => { c with run := 0x1234 })).pit.cnt0
     (c.latch, c.latched, c.rdHi)) = (0x1234, true, false)
      ∧ (after (.outPitLatch 0) (withCnt0 fun c => { c with run := 0x1233, latch := 0x1234, latched := true })).pit.cnt0.latch
        = 0x1234 := by decide

/-- R240: a control word cancels the latch and the toggles and leaves the count; for the counter it names. -/
theorem test_out_pit_control :
    (let c := (after (.outPitControl 0 1 2 true) (withCnt0 fun c =>
        { c with run := 7, latched := true, rdHi := true, wrHi := true })).pit.cnt0
     (c.rw, c.mode, c.bcd, c.latched, c.rdHi, c.wrHi, c.run)) = (1, 2, true, false, false, false, 7)
      ∧ (after (.outPitControl 2 2 3 false) State.reset).pit.cnt2.mode = 3 := by decide

/-- R241: `sc` = 3 changes nothing. -/
theorem test_out_pit_ignored : after (.outPitIgnored 0x3F) State.reset = State.reset := by rfl

/-- R242: low byte only, high byte only, and the first and second byte of a pair. -/
theorem test_out_pit_cnt0 :
    (let lo := after (.outPitCnt0 0x05) (withCnt0 fun c => { c with rw := 1, load := 0x1234 })
     let hi := after (.outPitCnt0 0x01) (withCnt0 fun c => { c with rw := 2 })
     let p1 := after (.outPitCnt0 0x34) (withCnt0 fun c => { c with load := 0xAB00, run := 9 })
     let p2 := after (.outPitCnt0 0x12) (withCnt0 fun c => { c with load := 0xAB34, run := 9, wrHi := true })
     (lo.pit.cnt0.run, hi.pit.cnt0.run, p1.pit.cnt0.run, p1.pit.cnt0.load, p1.pit.cnt0.wrHi, p2.pit.cnt0.run,
       p2.pit.cnt0.wrHi)) = (0x0005, 0x0100, 9, 0xAB34, true, 0x1234, false) := by decide

/-- R242, R248: the other two counters. -/
theorem test_out_pit_cnt1_cnt2 :
    ((after (.outPitCnt1 0x10) State.reset).pit.cnt1.load, (after (.outPitCnt2 0x10) State.reset).pit.cnt2.load)
      = (0x0010, 0x0010) := by decide

/-- R245: the latched low byte, then the high byte and the release; the raw count; high byte only. -/
theorem test_in_pit_cnt0 :
    (outputs .inPitCnt0 (withCnt0 fun c => { c with run := 0x1233, latch := 0x1234, latched := true }),
      outputs .inPitCnt0 (withCnt0 fun c => { c with run := 0x5633, latch := 0x1234, latched := true, rdHi := true }),
      (after .inPitCnt0 (withCnt0 fun c => { c with latched := true, rdHi := true })).pit.cnt0.latched,
      outputs .inPitCnt0 (withCnt0 fun c => { c with run := 0x1233 }),
      outputs .inPitCnt0 (withCnt0 fun c => { c with run := 0x0100, rw := 2 }))
      = ([.portRead 4 0x34], [.portRead 4 0x12], false, [.portRead 4 0x33], [.portRead 4 0x01]) := by decide

/-- R245: the other two counters. -/
theorem test_in_pit_cnt1_cnt2 :
    (outputs .inPitCnt1 State.reset, outputs .inPitCnt2 State.reset) = ([.portRead 5 0], [.portRead 6 0]) := by decide

/-- R247 (95 section 2.9): from 0 the count wraps with no pulse; at 1 it reloads. -/
theorem test_tick :
    ((after .tick State.reset).pit.cnt0.run, (after .tick (withCnt0 fun c => { c with run := 1, load := 2 })).pit.cnt0.run)
      = (0xFFFF, 2) := by decide

/-- R322, R326, R327: the tick that pulses with TE, OE and IE set sets the status and raises the host line. -/
theorem test_tick_raises :
    (let s := { withCnt0 fun c => { c with run := 1, load := 1 } with net := { Net.reset with tcr := 0xC1 } }
     ((after .tick s).net.ts, outputs .tick s)) = (true, [.callback .host true]) := by decide

/-! ### The parallel interface (spec/95_test_vectors.md 2.10, P1) -/

/-- R276: 0xA2 is group A strobed output, group B basic input. -/
theorem test_out_mode_word :
    (let p := (after (.outPiuHMode ⟨1, false, false, false, true, false⟩) State.reset).piuH
     (p.ma, p.dirA, p.mb, p.dirB)) = (1, false, false, true) := by decide

/-- R276, R296: a new mode word drops the byte that waits; the firmware's strobed input mode word takes it. -/
theorem test_mode_word_waiting_byte :
    (let s := { State.reset with piuH := { piuHStrobed with obfA := true, outA := 0x77 } }
     ((after (.outPiuHMode ⟨1, false, false, true, true, false⟩) s).piuH.obfA,
       (after (.fwoutMode ⟨1, true, false, true, false, false⟩) s).piuF.inA,
       (after (.fwoutMode ⟨1, true, false, true, false, false⟩) s).piuH.obfA)) = (false, 0x77, false) := by decide

/-- R277: the refused mode words set the mark and change no unit. -/
theorem test_mode_word_bidirectional :
    (let t := after (.outPiuHModeBidir 0) linked; (t.mark, decide (t.piuH = linked.piuH))) = (some .piuBidirectional, true)
      ∧ (after (.fwoutModeBidir 0x3F) linked).mark = some .piuBidirectional := by decide

/-- R278: on PIU-H strobed output bit 6 is the interrupt enable, which requests at once (R291); bit 3 is taken. -/
theorem test_out_bsr :
    (let t := after (.outPiuHBsr 6 true) linked; (t.piuH.inteA, t.piuH.intrA)) = (true, true)
      ∧ after (.outPiuHBsr 3 true) linked = linked := ⟨by decide, rfl⟩

/-- R278: on PIU-F strobed input bit 4 is the interrupt enable, and bit 7 is general. -/
theorem test_fwout_bsr :
    ((after (.fwoutBsr 4 true) linked).piuF.inteA, (after (.fwoutBsr 7 true) linked).piuF.outC) = (true, 0x80) := by
  decide

/-- P1 line 6: the byte reaches PIU-F and is acknowledged in the same operation, with its callback. -/
theorem test_out_pa_handshake :
    (let s := { linked with piuF := { piuFStrobed with inteA := true } }
     let t := after (.outPiuHPa 0x5A) s
     (t.piuF.inA, t.piuF.ibfA, t.piuH.obfA, t.piuF.intrA, outputs (.outPiuHPa 0x5A) s))
      = (0x5A, true, false, true, [.callback .fw true]) := by decide

/-- R279: port B of PIU-H is a strobed input, so a write is ignored; in basic mode it is the latch. -/
theorem test_out_pb :
    after (.outPiuHPb 0x12) linked = linked ∧ (after (.outPiuHPb 0x12) State.reset).piuH.outB = 0x12 :=
  ⟨rfl, rfl⟩

/-- R284 (95 section 2.10): after 0xA2, 0xFF to port C leaves 0b0011_0111. -/
theorem test_out_pc :
    (after (.outPiuHPc 0xFF) { State.reset with piuH := { Piu.reset with ma := 1, dirA := false } }).piuH.outC
      = 0b0011_0111 := by decide

/-- R279: the firmware's ports; P1 line 9 delivers 0xA5 to the host. -/
theorem test_fwout_ports :
    ((after (.fwoutPa 0x11) State.reset).piuF.outA,
      (let t := after (.fwoutPb 0xA5) linked; (t.piuH.inB, t.piuH.ibfB, t.piuF.obfB)),
      (after (.fwoutPc 0xFF) linked).piuF.outC) = (0x11, (0xA5, true, false), 0b1100_0000) := by decide

/-- R281: basic mode reads the counterpart's latch when it drives; undriven pins are drawn. -/
theorem test_in_pa :
    outputs .inPiuHPa { State.reset with piuF := { Piu.reset with dirA := false, outA := 0x5A } } = [.portRead 0 0x5A]
      ∧ outputs .inPiuHPa State.reset = [.portRead 0 (Config.draw 0)] := by
  constructor <;> rfl

/-- R280 (P1 line 12): the strobed input read returns the byte and empties the buffer. -/
theorem test_in_pb :
    (let s := { linked with piuH := { piuHStrobed with inB := 0xA5, ibfB := true, ackBIn := false },
                            piuF := { piuFStrobed with ackBIn := true } }
     (outputs .inPiuHPb s, (after .inPiuHPb s).piuH.ibfB)) = ([.portRead 1 0xA5], false) := by decide

/-- R283: the rule's own example reads 0xCA, and P1 line 11 reads 0x87. -/
theorem test_in_pc :
    outputs .inPiuHPc { State.reset with piuH := { piuHStrobed with inteA := true, intrA := true, ibfB := true } }
        = [.portRead 2 0xCA]
      ∧ outputs .inPiuHPc { State.reset with piuH := { piuHStrobed with inteB := true, ibfB := true, intrB := true } }
        = [.portRead 2 0x87] := by
  constructor <;> decide

/-- R280, R281, R283 on the firmware's side; P1 line 7 reads 0x3A. -/
theorem test_fwin_ports :
    outputs .fwinPa { linked with piuF := { piuFStrobed with inA := 0x5A } } = [.fwRead .pa 0x5A]
      ∧ outputs .fwinPb { State.reset with piuF := { Piu.reset with dirB := false, outB := 0xA5 } } = [.fwRead .pb 0xA5]
      ∧ outputs .fwinPc { linked with piuF := { piuFStrobed with inteA := true, ibfA := true, intrA := true } }
        = [.fwRead .pc 0x3A] := by
  refine ⟨?_, ?_, ?_⟩ <;> decide

/-- R123: the write-only registers read as a drawn byte, with no other effect. -/
theorem test_write_only_reads :
    outputs .inPiuHMode State.reset = [.portRead 3 (Config.draw 0)]
      ∧ outputs .inPitCmd { State.reset with draws := 4 } = [.portRead 7 (Config.draw 4)]
      ∧ outputs .fwinMode State.reset = [.fwRead .mode (Config.draw 0)]
      ∧ (after .fwinMode State.reset).draws = 1 := by
  refine ⟨?_, ?_, ?_, ?_⟩ <;> rfl

/-! ### The network (spec/95_test_vectors.md 2.1, 2.11) -/

/-- R314, R315: the mirrors. -/
theorem test_tcr :
    (after (.outNetTcr 1 0x3C) State.reset).net.tcr = 0x3C
      ∧ outputs (.inNetTcr 3) (withTcr 0x3C) = [.portRead 11 0x3C] := by decide

/-- R322, R326 (95 section 2.11): TC clears the status and lowers the host line. -/
theorem test_tcr_clear :
    (let s := { State.reset with net :=
        { Net.reset with tcr := 0xC1, ts := true, card := true, host := .high, hostSeen := true } }
     ((after (.outNetTcr 0 0xC3) s).net.ts, outputs (.outNetTcr 0 0xC3) s)) = (false, [.callback .host false]) := by
  decide

/-- R316: TSR ignores writes and reads 0x89 (P2 line 7) and 0x8C (P1 line 10). -/
theorem test_tsr :
    after (.outNetTsr 1 0xFF) State.reset = State.reset
      ∧ outputs (.inNetTsr 0) { State.reset with net := { Net.reset with ts := true, card := true, host := .high } }
        = [.portRead 12 0x89]
      ∧ outputs (.inNetTsr 0) { linked with
          piuH := { piuHStrobed with intrB := true }, net := { Net.reset with card := true, host := .high } }
        = [.portRead 12 0x8C] := by
  refine ⟨rfl, ?_, ?_⟩ <;> decide

/-! ### The classifiers (spec/95_test_vectors.md 1.2 to 1.5, 2.12) -/

/-- The MIDI-IN classifier's state and accumulator after one operation, with its outputs. -/
def classified (i : Instr) (s : State) : Nat × List Byte × List Event :=
  ((after i s).mpcMidiIn.state, (after i s).mpcMidiIn.acc, outputs i s)

/-- R341, R344 (95 section 1.2): a status byte from a partial message, and from System-Exclusive. -/
theorem test_midi_note_on :
    (classified (.midiNoteOn .midiIn 2) (withMpc 5 [0x90, 0x3C] 1), classified (.midiNoteOn .midiIn 2) (withMpc 20 [] 1))
      = ((4, [0x92], []), (4, [0x92], [.sysex .midiIn 0x92])) := by decide

/-- The other channel statuses' states (R352). -/
theorem test_midi_channel_status :
    [classified (.midiNoteOff .midiIn 0) State.reset, classified (.midiPolyPressure .midiIn 0) State.reset,
        classified (.midiControlChange .midiIn 0) State.reset, classified (.midiProgramChange .midiIn 0) State.reset,
        classified (.midiChannelPressure .midiIn 0) State.reset, classified (.midiPitchBend .midiIn 0) State.reset]
      = [(1, [0x80], []), (7, [0xA0], []), (10, [0xB0], []), (16, [0xC0], []), (18, [0xD0], []), (13, [0xE0], [])] := by
  decide

/-- The system statuses' states (R353): tune request is forwarded, 0xF7 ends System-Exclusive. -/
theorem test_midi_system_status :
    [classified (.midiSysEx .midiIn) State.reset, classified (.midiTimeCode .midiIn) State.reset,
        classified (.midiSongPosition .midiIn) State.reset, classified (.midiSongSelect .midiIn) State.reset,
        classified (.midiUndefinedF4 .midiIn) State.reset, classified (.midiUndefinedF5 .midiIn) State.reset,
        classified (.midiTuneRequest .midiIn) State.reset, classified (.midiEndOfExclusive .midiIn) (withMpc 20 [] 1)]
      = [(20, [0xF0], [.sysex .midiIn 0xF0]), (21, [0xF1], []), (23, [0xF2], []), (26, [0xF3], []), (29, [0xF4], []),
        (29, [0xF5], []), (28, [0xF6], [.emit .synth .midiIn [0xF6]]), (30, [0xF7], [.sysex .midiIn 0xF7])] := by decide

/-- R358 (95 section 1.4): the end of a note-on, on the reset flow and on all three destinations in order. -/
theorem test_midi_data_note :
    (classified (.midiData .midiIn 0x40) (withMpc 5 [0x90, 0x3C] 1)
      = (6, [0x90], [.emit .synth .midiIn [0x90, 0x3C, 0x40]]))
      ∧ outputs (.midiData .midiIn 0x40) (withMpc 5 [0x90, 0x3C] 7)
        = [.emit .synth .midiIn [0x90, 0x3C, 0x40], .emit .midiOut .midiIn [0x90, 0x3C, 0x40],
          .emit .host .midiIn [0x90, 0x3C, 0x40]] := by decide

/-- R344, R346, R360: System-Exclusive data, a two-byte message's running status, and data with no status. -/
theorem test_midi_data_other :
    [classified (.midiData .midiIn 0x43) (withMpc 20 [0xF0] 1), classified (.midiData .midiIn 0x06) (withMpc 17 [0xC0] 1),
        classified (.midiData .midiIn 0x3C) State.reset, classified (.midiData .midiIn 0x06) (withMpc 22 [0xF1] 1)]
      = [(20, [], [.sysex .midiIn 0x43]), (17, [0xC0], [.emit .synth .midiIn [0xC0, 0x06]]), (0, [], []), (0, [], [])] := by
  decide

/-- A real-time byte inside a note-on cancels it (R341, U3). -/
theorem test_midi_real_time :
    classified (.midiRealTime .midiIn 0) (withMpc 5 [0x90, 0x3C] 1) = (31, [0xF8], [.emit .synth .midiIn [0xF8]]) := by
  decide

/-- R361: the host stream alone changes. -/
theorem test_midi_feed :
    (let t := after (.midiFeed .host 0x90) State.reset; (t.mpcHost.state, t.mpcMidiIn.state)) = (4, 0) := by decide

/-- R350: FLOW writes one row of the matrix. -/
theorem test_flow :
    (let t := after (.flow .midiIn 0b101) State.reset; (t.mpcMidiIn.flow, t.mpcHost.flow)) = (5, 1) := by decide

/-! ### Reset and the refusal mark -/

/-- R390, R394, R328: RESET clears the mark and every unit, and raises no callback. -/
theorem test_reset :
    after .reset { linked with mark := some .piuBidirectional, net := { Net.reset with hostSeen := true, fwSeen := true } }
      = State.reset := by rfl

/-- R374: while the mark is set the step refuses any other operation by name. -/
theorem test_step_after_refusal :
    step { State.reset with mark := some .piuBidirectional, pending := [⟨.tick, 0⟩] }
      = .refused (.afterRefusal .piuBidirectional) := by rfl

/-! ### Witnesses: concrete states and operands that meet the hypotheses of the statements -/

/-- A state with one operation to come. -/
def about (a : Access) (s : State) : State :=
  { s with pending := [a] }

/-- EncodedInstructionsDecodeBack: well-formed operations at the bounds of the checks. -/
theorem witness_well_formed :
    Instr.wellFormed (.outPitControl 2 1 7 true) = true ∧ Instr.wellFormed (.outPitLatch 0) = true
      ∧ Instr.wellFormed (.fwoutMode ⟨1, false, false, false, false, false⟩) = true := by decide

/-- FittingRecordsDecode, EveryOperationCompletes: the greatest word that fits a path, and the next one. -/
theorem witness_fitting_records :
    (Access.mk .hostWrite 4095).fits = true ∧ (Access.mk .hostWrite 4096).fits = false
      ∧ (Access.mk .samples 100000).fits = true ∧ (Access.mk .tick 1).fits = false := by decide

/-- StepRunsDecodedInstruction. -/
theorem witness_step_runs :
    (about ⟨.fmWrite, 0x0878⟩ State.reset).pending = [⟨.fmWrite, 0x0878⟩]
      ∧ decode ⟨.fmWrite, 0x0878⟩ = .ok (.fmwKon 0 true true true true)
      ∧ (about ⟨.fmWrite, 0x0878⟩ State.reset).mark = none := ⟨rfl, rfl, rfl⟩

/-- StopsAndIdleSteps, its four clauses: nothing pending; a record that is no operation; the mark with another operation
and with RESET. -/
theorem witness_stops_and_idle :
    State.reset.pending = []
      ∧ decode ⟨.hostRead, 16⟩ = .error (.wordTooWide .hostRead)
      ∧ (after (.outPiuHModeBidir 0) State.reset).mark = some .piuBidirectional
      ∧ decode ⟨.tick, 0⟩ = .ok .tick ∧ Instr.tick ≠ .reset ∧ decode ⟨.reset, 0⟩ = .ok .reset :=
  ⟨rfl, rfl, rfl, rfl, by decide, rfl⟩

/-- ChannelWrites: the first and the last used note code, and one beside an unused code. -/
theorem witness_channel_writes :
    ((0x00 : BitVec 7).extractLsb 3 0).toNat % 4 ≠ 3 ∧ ((0x7E : BitVec 7).extractLsb 3 0).toNat % 4 ≠ 3
      ∧ ((0x44 : BitVec 7).extractLsb 3 0).toNat % 4 ≠ 3 := by decide

/-- EnvelopeInvariantKept: the invariant holds at reset, and a key-on is a next state from there; an OFF operator. -/
theorem witness_envelope_invariant :
    (about ⟨.fmWrite, 0x0878⟩ State.reset).fm.EnvelopeSound
      ∧ (∃ t, step (about ⟨.fmWrite, 0x0878⟩ State.reset) = .next t) ∧ Operator.reset.eg = .off := by
  refine ⟨fun c s => ?_, ⟨_, rfl⟩, rfl⟩
  show (Fm.reset.op c s).EnvelopeSound
  rw [Fm.op_reset]
  exact ⟨by decide, by decide, by decide, by decide⟩

/-- DerivedFieldsKept: the derived fields are right at reset, and a key code write is a next state from there. -/
theorem witness_derived_fields :
    (about ⟨.fmWrite, 0x284A⟩ State.reset).fm.DerivedSound params
      ∧ ∃ t, step (about ⟨.fmWrite, 0x284A⟩ State.reset) = .next t := by
  refine ⟨fun c => ?_, ⟨_, rfl⟩⟩
  show (Fm.reset.chan c).kci = keyIndex (Fm.reset.chan c).kc (Fm.reset.chan c).kf
    ∧ ∀ s, FreqDerived params (Fm.reset.chan c) (Fm.reset.op c s)
      ∧ EnvelopeDerived params (Fm.reset.chan c).kc (Fm.reset.op c s)
  simp only [Fm.op_reset, Fm.chan_reset]
  exact ⟨rfl, fun _ => ⟨rfl, rfl, rfl, rfl, rfl, rfl, rfl, rfl⟩⟩

/-- RangesKept: a state at the bounds of the ranges, and a sample from it. -/
theorem witness_ranges :
    let s := about ⟨.sample, 0⟩ (withFm fun fm => { fm with
      egDiv := 2, lfa := 254, lfp := -127, taCnt := 1024, tbCnt := 1, loadB := true, csmReq := 2, outL := 32767,
      outR := -32768, flagA := true, irq := true, test := 2 })
    s.fm.RangesSound ∧ ∃ t, step s = .next t := by
  refine ⟨?_, ⟨_, rfl⟩⟩
  unfold Fm.RangesSound
  decide

/-- HandshakeAndNetworkStaySettled: the linked units at rest, and a write from there. -/
theorem witness_settled :
    HandshakeSettled linked.piuH linked.piuF ∧ (about ⟨.hostWrite, 0x05A⟩ linked).NetSettled
      ∧ ∃ t, step (about ⟨.hostWrite, 0x05A⟩ linked) = .next t := by
  refine ⟨⟨⟨by decide, fun x => by cases x <;> decide⟩, by decide, by decide⟩, ?_, ⟨_, rfl⟩⟩
  unfold State.NetSettled
  decide

/-- TimerInvariantKept: a byte order other than reset's, and a load from there. -/
theorem witness_timer_invariant :
    (withCnt0 fun c => { c with rw := 1 }).pit.Sound
      ∧ ∃ t, step (about ⟨.hostWrite, 0x405⟩ (withCnt0 fun c => { c with rw := 1 })) = .next t :=
  ⟨⟨fun n => by cases n <;> decide, rfl⟩, ⟨_, rfl⟩⟩

/-- ClassifiersStaySound: a note-on in progress, and its last byte. -/
theorem witness_classifiers :
    (withMpc 5 [0x90, 0x3C] 7).mpcMidiIn.Sound ∧ (withMpc 5 [0x90, 0x3C] 7).mpcHost.Sound
      ∧ ∃ t, step (about ⟨.midi .midiIn, 0x40⟩ (withMpc 5 [0x90, 0x3C] 7)) = .next t :=
  ⟨⟨by decide, .inr ⟨0x90, [0x3C], rfl, by decide, by decide⟩, by decide⟩, ⟨by decide, .inl rfl, by decide⟩, ⟨_, rfl⟩⟩

/-- TraceOnlyGrows: a step, with nothing pending and with a sample to come. -/
theorem witness_trace_grows :
    (∃ t, step State.reset = .next t) ∧ ∃ t, step (about ⟨.sample, 0⟩ State.reset) = .next t :=
  ⟨⟨_, rfl⟩, ⟨_, rfl⟩⟩

/-- AgentsReachOnlyTheirOwn: an operation of each agent answers a next state. -/
theorem witness_agents :
    (∃ t, exec (.outPiuHPa 0x5A) linked = .next t) ∧ (∃ t, exec (.fwoutPb 0xA5) linked = .next t)
      ∧ (∃ t, exec .sample linked = .next t) ∧ (∃ t, exec .tick linked = .next t)
      ∧ (∃ t, exec (.midiData .host 0) linked = .next t) ∧ ∃ t, exec .reset linked = .next t :=
  ⟨⟨_, rfl⟩, ⟨_, rfl⟩, ⟨_, rfl⟩, ⟨_, rfl⟩, ⟨_, rfl⟩, ⟨_, rfl⟩⟩

/-- LfoAndNoiseAdvance: the held phase; the sample before and the sample of a step; each waveform. -/
theorem witness_lfo :
    (withFm fun fm => { fm with test := 2 }).fm.test.getLsbD 1 = true
      ∧ ((let fm := (withFm fun fm => { fm with lfrq := 0xFF, lfoTimer := 6, lfoWave := 1 }).fm
          (fm.test.getLsbD 1, decide (fm.lfoTimer + 1 < 2 ^ (18 - (fm.lfrq.extractLsb 7 4).toNat)))) = (false, true))
      ∧ ((let fm := (withFm fun fm => { fm with lfrq := 0xFF, lfoTimer := 7, lfoWave := 2 }).fm
          (fm.test.getLsbD 1, decide (2 ^ (18 - (fm.lfrq.extractLsb 7 4).toNat) ≤ fm.lfoTimer + 1))) = (false, true))
      ∧ State.reset.fm.lfoWave = 0 ∧ (withFm fun fm => { fm with lfoWave := 3 }).fm.lfoWave = 3 := by decide

/-- EnvelopeDivider: the sample before a tick and the sample of a tick, with the attack's two cases of R183. -/
theorem witness_envelope_divider :
    (withFm fun fm => { fm with egDiv := 1 }).fm.egDiv ≠ 2 ∧ (withFm fun fm => { fm with egDiv := 2 }).fm.egDiv = 2
      ∧ DueAt 16 ⟨4, 2⟩ ∧ ¬ DueAt 15 ⟨4, 2⟩ := by
  unfold DueAt
  decide

/-- FmTimersAndCsm: the three values of the request; the counts at 1 and above, and timers that do not run. -/
theorem witness_fm_timers :
    (withFm fun fm => { fm with csmReq := 2 }).fm.csmReq = 2 ∧ (withFm fun fm => { fm with csmReq := 1 }).fm.csmReq = 1
      ∧ State.reset.fm.csmReq = 0
      ∧ (let fm := (withFm fun fm => { fm with loadA := true, taCnt := 1, loadB := true, tbCnt := 4096 }).fm
        (fm.loadA = true → 1 ≤ fm.taCnt) ∧ (fm.loadB = true → 1 ≤ fm.tbCnt)
          ∧ (fm.loadA = true ∧ fm.taCnt = 1) ∧ ¬ (fm.loadB = true ∧ fm.tbCnt = 1))
      ∧ State.reset.fm.loadA = false := by decide

/-- SamplesCompose: `n` = 0, and no mark. -/
theorem witness_samples : (0 : Nat) = 0 ∧ State.reset.mark = none := ⟨rfl, rfl⟩

/-- Every operator at the level where the output stops (R196), TL 104, the envelopes at 0. -/
def quiet : State :=
  withFm fun fm => fm.onOps fun _ o => { o with tl := 104, tlAtt := 832, att := 0, eg := .decay1, key := 1 }

/-- SilencedFrames: every total level at 832 exactly. -/
theorem witness_silenced :
    (∀ c sl, 832 ≤ (quiet.fm.op c sl).tlAtt) ∧ (∀ c, (quiet.fm.chan c).fbCur = 0) ∧ quiet.fm.ne = false := by
  refine ⟨fun c sl => ?_, fun c => ?_, rfl⟩
  · show 832 ≤ (Fm.op (Fm.onOps Fm.reset _) c sl).tlAtt
    rw [Fm.op_onOps]
  · show ((Fm.onOps Fm.reset _).chan c).fbCur = 0
    rw [Fm.chan_onOps, Fm.chan_reset]
    rfl

/-- QuietAfterReset, OperatorOutputBound: the bounds of their ranges. -/
theorem witness_ranges_of_naturals :
    ((1 : Nat) ≤ 1 ∧ (1 : Nat) ≤ 65535) ∧ ((1 : Nat) ≤ 65535 ∧ (65535 : Nat) ≤ 65535) ∧ (832 : Nat) ≤ 832
      ∧ (511 : Nat) < 512 := by decide

/-- PitCommands: a byte order that is stored. -/
theorem witness_pit_commands : (1 : BitVec 2) ≠ 0 := by decide

/-- PitCounterWrite, PitCounterRead: the four byte orders and toggles, each on a counter. -/
theorem witness_pit_byte_orders :
    ((withCnt0 fun c => { c with rw := 1 }).pit.get .cnt0).rw = 1
      ∧ ((withCnt0 fun c => { c with rw := 2 }).pit.get .cnt0).rw = 2
      ∧ (State.reset.pit.get .cnt1).rw = 3 ∧ (State.reset.pit.get .cnt1).wrHi = false
      ∧ (State.reset.pit.get .cnt1).rdHi = false
      ∧ ((withCnt0 fun c => { c with wrHi := true, rdHi := true }).pit.get .cnt0).wrHi = true
      ∧ ((withCnt0 fun c => { c with wrHi := true, rdHi := true }).pit.get .cnt0).rdHi = true
      ∧ ((withCnt0 fun c => { c with wrHi := true, rdHi := true }).pit.get .cnt0).rw = 3 := by decide

/-- LatchedReadBack: a running counter that is not latched. -/
theorem witness_latched_read_back :
    (let s := withCnt0 fun c => { c with run := 0x1234, load := 0x1234 }
     (s.mark, (s.pit.get .cnt0).rw, (s.pit.get .cnt0).latched)) = (none, 3, false) := by decide

/-- TickEffect: the count before the last, and the last. -/
theorem witness_tick :
    (withCnt0 fun c => { c with run := 2 }).pit.cnt0.run ≠ 1 ∧ (withCnt0 fun c => { c with run := 1 }).pit.cnt0.run = 1 := by
  decide

/-- TimerPeriod: a load of 1, and the load of 0 that stands for 65536. -/
theorem witness_timer_period :
    (let s := withCnt0 fun c => { c with run := 1, load := 1 }
     s.mark = none ∧ s.pit.cnt0.run = s.pit.cnt0.load
      ∧ 1 = (if s.pit.cnt0.load = 0 then 65536 else s.pit.cnt0.load.toNat))
    ∧ State.reset.mark = none ∧ State.reset.pit.cnt0.run = State.reset.pit.cnt0.load
    ∧ 65536 = (if State.reset.pit.cnt0.load = 0 then 65536 else State.reset.pit.cnt0.load.toNat) := by decide

/-- Counter 0 about to reach 0, with a TCR and the host line's level for it. -/
def aboutToPulse (tcr : Byte) (line : HostLine) : State :=
  { withCnt0 (fun c => { c with run := 1, load := 1 }) with net := { Net.reset with tcr := tcr, host := line } }

/-- TickRaisesHostLine: TE with OE and IE; TE without OE, and the later write of OE and IE. -/
theorem witness_tick_raises :
    ((aboutToPulse 0xC1 .low).NetSettled ∧ (aboutToPulse 0xC1 .low).net.tcr.getLsbD 0 = true
        ∧ (aboutToPulse 0xC1 .low).net.tcr.getLsbD 1 = false ∧ (aboutToPulse 0xC1 .low).pit.cnt0.run = 1
        ∧ (aboutToPulse 0xC1 .low).net.tcr.getLsbD 6 = true ∧ (aboutToPulse 0xC1 .low).net.tcr.getLsbD 7 = true)
      ∧ ((aboutToPulse 0x01 .z).NetSettled ∧ (aboutToPulse 0x01 .z).net.tcr.getLsbD 0 = true
        ∧ (aboutToPulse 0x01 .z).net.tcr.getLsbD 1 = false ∧ (aboutToPulse 0x01 .z).pit.cnt0.run = 1
        ∧ (aboutToPulse 0x01 .z).net.tcr.getLsbD 6 = false)
      ∧ ((0xC0 : Byte).getLsbD 1 = false ∧ (0xC0 : Byte).getLsbD 6 = true ∧ (0xC0 : Byte).getLsbD 7 = true) := by
  unfold State.NetSettled
  decide

/-- PiuModeWords, WaitingByteDelivered: mode words of both plain modes. -/
theorem witness_mode_words :
    ModeWord.wellFormed ⟨0, true, true, false, true, true⟩ = true
      ∧ ModeWord.wellFormed ⟨1, true, false, true, false, false⟩ = true := by decide

/-- PortCBitSet and PortCReadAndWrite, clause by clause: the enable of group A in both directions, of group B, a status
bit, a general bit; both directions of group B. -/
theorem witness_port_c :
    ((linked.piu .h).ma = 1 ∧ (linked.piu .h).dirA = false ∧ (6 : BitVec 3) = 6)
      ∧ ((linked.piu .f).ma = 1 ∧ (linked.piu .f).dirA = true ∧ (4 : BitVec 3) = 4)
      ∧ ((linked.piu .h).mb = true ∧ (2 : BitVec 3) = 2)
      ∧ ((linked.piu .h).HandshakeBit 7 ∧ (7 : BitVec 3) ≠ 2 ∧ (7 : BitVec 3) ≠ 4 ∧ (7 : BitVec 3) ≠ 6)
      ∧ ¬ (linked.piu .h).HandshakeBit 4 ∧ ¬ (State.reset.piu .f).HandshakeBit 0
      ∧ (linked.piu .h).dirB = true ∧ (linked.piu .f).dirB = false := by
  unfold Piu.HandshakeBit
  decide

/-- DataPortWrite, DataPortRead: a strobed input, a strobed output, a basic output, a basic input that the counterpart
drives and one that it does not drive. -/
theorem witness_data_ports :
    ((linked.piu .f).ma = 1 ∧ (linked.piu .f).dir .a = true)
      ∧ ((linked.piu .h).ma = 1 ∧ (linked.piu .h).dir .a = false)
      ∧ (let s := { State.reset with piuH := { Piu.reset with dirA := false } }
        ¬ (s.piu .h).ma = 1 ∧ (s.piu .h).dir .a = false ∧ ¬ (s.piu .f).ma = 1 ∧ (s.piu .f).dir .a = true
          ∧ (s.piu (PiuId.other .f)).dir .a = false ∧ (s.piu (PiuId.other .f)).ma = 0)
      ∧ (¬ (State.reset.piu .h).mb = true ∧ (State.reset.piu .h).dir .b = true
        ∧ ¬ (State.reset.piu (PiuId.other .h)).dir .b = false) := by decide

/-- FourPhaseCycles: the linked units, ready both ways. -/
theorem witness_four_phase :
    HandshakeSettled linked.piuH linked.piuF
      ∧ (linked.piuH.ma = 1 ∧ linked.piuH.dirA = false ∧ linked.piuF.ma = 1 ∧ linked.piuF.dirA = true
        ∧ linked.piuH.obfA = false ∧ linked.piuF.ibfA = false)
      ∧ (linked.piuF.mb = true ∧ linked.piuF.dirB = false ∧ linked.piuH.mb = true ∧ linked.piuH.dirB = true
        ∧ linked.piuF.obfB = false ∧ linked.piuH.ibfB = false) :=
  ⟨⟨⟨by decide, fun x => by cases x <;> decide⟩, by decide, by decide⟩, by decide, by decide⟩

/-- WaitingByteDelivered: the host in strobed output mode while the firmware is as after reset. -/
theorem witness_waiting_byte :
    (let s := { State.reset with piuH := { Piu.reset with ma := 1, dirA := false } }
     HandshakeSettled s.piuH s.piuF ∧ s.piuH.ma = 1 ∧ s.piuH.dirA = false ∧ (s.piuF.ma = 0 ∨ s.piuF.dirA = false))
      ∧ ((⟨1, true, false, true, false, false⟩ : ModeWord).ma = 1
        ∧ (⟨1, true, false, true, false, false⟩ : ModeWord).dirA = true) :=
  ⟨⟨⟨⟨by decide, fun x => by cases x <;> decide⟩, by decide, by decide⟩, by decide, by decide, by decide⟩, by decide⟩

/-- StatusByteResetsForAnyTables: the least and the greatest status byte, and a table set with a System-Exclusive state. -/
theorem witness_status_byte :
    128 ≤ (0x80 : Byte).toNat ∧ 128 ≤ (0xFF : Byte).toNat
      ∧ mpcTables.sysexState ((withMpc 20 [0xF0] 1).mpc .midiIn).state = true := by decide

/-- MidiDataByte: a state of the table, one past it, and each class of the state it leads to. -/
theorem witness_midi_data :
    ((withMpc 31 [0xF8] 1).mpc .midiIn).state = 31 ∧ 32 ≤ ((withMpc 32 [] 1).mpc .midiIn).state
      ∧ [0, 20, 1, 4, 5, 16, 21].map (fun q => ((after (.midiData .midiIn 5) (withMpc q [0x90] 1)).mpc .midiIn).state)
        = [0, 20, 2, 5, 6, 17, 22] := by decide

/-- NoteOnRunningStatus, SysexReachesEngineInOrder: no mark, also in the middle of a System-Exclusive message. -/
theorem witness_midi_runs : State.reset.mark = none ∧ (withMpc 20 [] 7).mark = none := ⟨rfl, rfl⟩

/-- Every field of `params` but two: no attack step at key-on (R154) and SQUARE (R249). -/
def otherParams : Params :=
  { params with keyonStep := false, tickMode := tickSquare }

/-- R154, R249 (R7): with other values of the fields a key-on leaves the level, and a tick at count 1 inverts the output. -/
theorem test_other_parameters :
    (∃ t, execWith otherParams (.fmwKon 0 true false false false) State.reset = .next t
        ∧ ((t.fm.op 0 0).eg, (t.fm.op 0 0).att) = (.attack, 1023))
      ∧ ∃ t, execWith otherParams .tick (withCnt0 fun c => { c with run := 1, load := 5 }) = .next t
        ∧ (t.pit.out0, t.pit.cnt0.run) = (false, 5) :=
  ⟨⟨_, rfl, by decide⟩, ⟨_, rfl, by decide⟩⟩

/-- AnyParametersKeepInvariants: a state that meets its premises for other fields, and a register write from there. -/
theorem witness_any_parameters :
    let s := about ⟨.fmWrite, 0x284A⟩ State.reset
    s.fm.DerivedSound otherParams ∧ s.fm.RangesSound ∧ HandshakeSettled s.piuH s.piuF ∧ s.NetSettled
      ∧ ∃ t, stepWith otherParams s = .next t := by
  refine ⟨fun c => ?_, by unfold Fm.RangesSound; decide,
    ⟨⟨by decide, fun x => by cases x <;> decide⟩, by decide, by decide⟩, by unfold State.NetSettled; decide, ⟨_, rfl⟩⟩
  show (Fm.reset.chan c).kci = keyIndex (Fm.reset.chan c).kc (Fm.reset.chan c).kf
    ∧ ∀ s, FreqDerived otherParams (Fm.reset.chan c) (Fm.reset.op c s)
      ∧ EnvelopeDerived otherParams (Fm.reset.chan c).kc (Fm.reset.op c s)
  simp only [Fm.op_reset, Fm.chan_reset]
  exact ⟨rfl, fun _ => ⟨rfl, rfl, rfl, rfl, rfl, rfl, rfl, rfl⟩⟩

end Sys2Proof.Tests
end

/-! What an operation does to the model's own fields: the records to come, the outputs and the draw counter
(log 1, 4, 5). -/

namespace Sys2Proof.Machine

/-- `t` comes after `s` with the same operations to come: no draw is given back and no output is withdrawn
(R10, R380; log 1, 4, 5). -/
def State.Extends (s t : State) : Prop :=
  t.pending = s.pending ∧ s.draws ≤ t.draws ∧ ∃ es, t.trace = s.trace ++ es

theorem State.Extends.refl (s : State) : s.Extends s :=
  ⟨rfl, le_rfl, [], (List.append_nil _).symm⟩

theorem State.Extends.trans {s t u : State} (hst : s.Extends t) (htu : t.Extends u) : s.Extends u := by
  obtain ⟨hp, hd, es, ht⟩ := hst
  obtain ⟨hp', hd', es', ht'⟩ := htu
  exact ⟨hp'.trans hp, hd.trans hd', es ++ es', by rw [ht', ht, List.append_assoc]⟩

/-- An update that leaves the model's own fields alone. -/
theorem State.Extends.of_eq {s t : State} (hp : t.pending = s.pending) (hd : t.draws = s.draws)
    (ht : t.trace = s.trace) : s.Extends t :=
  ⟨hp, hd.ge, [], by rw [ht, List.append_nil]⟩

theorem State.extends_output (s : State) (e : Event) : s.Extends (s.output e) :=
  ⟨rfl, le_rfl, _, rfl⟩

theorem State.extends_takeDraw (s : State) : s.Extends s.takeDraw :=
  ⟨rfl, Nat.le_succ _, [], (List.append_nil _).symm⟩

theorem State.extends_draw (s : State) (e : Event) : s.Extends (s.takeDraw.output e) :=
  s.extends_takeDraw.trans (s.takeDraw.extends_output e)

theorem State.extends_setPiu (s : State) (q : PiuId) (p : Piu) : s.Extends (s.setPiu q p) :=
  .of_eq (by simp) (by simp) (by simp)

theorem State.extends_netUpdate (s : State) : s.Extends s.netUpdate := by
  rw [State.netUpdate_eq]
  exact ⟨rfl, le_rfl, _, rfl⟩

theorem State.extends_piuUpdate (s : State) : s.Extends s.piuUpdate := by
  rw [State.piuUpdate_eq]
  exact State.extends_netUpdate { s with piuH := _, piuF := _ }

/-- A unit replaced, then `PIU_UPDATE()`: the form of every write to the parallel interface. -/
theorem State.extends_setPiu_piuUpdate (s : State) (q : PiuId) (p : Piu) : s.Extends (s.setPiu q p).piuUpdate :=
  (s.extends_setPiu q p).trans (State.extends_piuUpdate _)

theorem State.extends_driveOut0 (s : State) (level : Bool) : s.Extends (s.driveOut0 level) :=
  State.extends_netUpdate (s.setPit { s.pit with out0 := level })

theorem State.extends_foldl_driveOut0 (levels : List Bool) (s : State) :
    s.Extends (levels.foldl State.driveOut0 s) := by
  induction levels generalizing s with
  | nil => exact .refl s
  | cons l ls ih => exact (s.extends_driveOut0 l).trans (ih _)

theorem State.extends_pitTickWith (m : TickMode) (s : State) : s.Extends (s.pitTickWith m) :=
  State.extends_foldl_driveOut0 _ (s.setPit { s.pit with cnt0 := { s.pit.cnt0 with run := _ } })

theorem State.extends_piuWrite (s : State) (q : PiuId) (x : Port) (v : Byte) : s.Extends (s.piuWrite q x v) := by
  unfold State.piuWrite
  split
  · exact .refl s
  · exact s.extends_setPiu_piuUpdate q _

theorem State.extends_piuReadPlain (s : State) (q : PiuId) (x : Port) : s.Extends (s.piuReadPlain q x) := by
  unfold State.piuReadPlain
  split
  · exact s.extends_output _
  · split
    · exact s.extends_output _
    · exact s.extends_draw _

theorem State.extends_piuRead (s : State) (q : PiuId) (x : Port) : s.Extends (s.piuRead q x) := by
  unfold State.piuRead
  split
  · exact (s.extends_setPiu_piuUpdate q _).trans (State.extends_output _ _)
  · exact s.extends_piuReadPlain q x

theorem State.extends_midiFeedWith (T : MpcTables) (s : State) (st : Stream) (b : Byte) :
    s.Extends (s.midiFeedWith T st b) := by
  rw [State.midiFeedWith_eq]
  exact ⟨by simp, by simp, _, rfl⟩

theorem State.extends_advanceSamples (P : Params) (n : Nat) (s : State) : s.Extends (State.advanceSamples P n s) := by
  induction n generalizing s with
  | zero => exact .refl s
  | succ n ih => exact (State.extends_output (s.setFm _) _).trans (ih _)

/-- Every shared operation extends the outputs, for any configuration fields. -/
theorem Moves.extends {P : Params} {w : Bool} {s t : State} (h : Moves P w s t) : s.Extends t := by
  cases h with
  | same => exact .refl s
  | fm | refuse | latch | control | pitWrite | reset => exact .of_eq rfl rfl rfl
  | setFlow => exact .of_eq (by simp [State.setFlow]) (by simp [State.setFlow]) (by simp [State.setFlow])
  | output e => exact s.extends_output e
  | draw e => exact s.extends_draw e
  | pitRead => exact State.extends_output (s.setPit _) _
  | tick => exact s.extends_pitTickWith _
  | piuWrite => exact s.extends_piuWrite ..
  | piuRead => exact s.extends_piuRead ..
  | piuWriteC | piuSetMode | piuBitSet => exact s.extends_setPiu_piuUpdate ..
  | writeTcr => exact State.extends_netUpdate (s.setNet _)
  | midiFeed => exact s.extends_midiFeedWith ..
  | samples => exact s.extends_advanceSamples ..

/-- Settles O14: a step with nothing pending changes nothing, any other one takes the first record and makes a move,
which extends the outputs. -/
theorem traceOnlyGrows : Obligations.TraceOnlyGrows := by
  intro s t h
  rcases step_next h with ⟨hp, rfl⟩ | ⟨a, rest, i, hp, -, he⟩
  · exact ⟨by rw [hp, List.tail_nil], le_rfl, [], (List.append_nil _).symm, fun _ => rfl⟩
  · obtain ⟨hpending, hdraws, es, htrace⟩ := (exec_moves he).extends
    refine ⟨by rw [hpending, hp]; rfl, hdraws, es, htrace, fun hnil => ?_⟩
    rw [hp] at hnil
    contradiction

end Sys2Proof.Machine

/-! The derived fields (spec/40_fm_registers.md R155, R156, R158), for any configuration fields (R7). -/

namespace Sys2Proof.Machine

/-- The derived fields of an operator of a channel are what R155 and R156 compute. -/
def Operator.DerivedSound (P : Params) (ch : Channel) (o : Operator) : Prop :=
  FreqDerived P ch o ∧ EnvelopeDerived P ch.kc o

/-- The derived fields of a channel and its operators are what R155 and R156 compute. -/
def Channel.DerivedSound (P : Params) (ch : Channel) : Prop :=
  ch.kci = P.kci ch.kc ch.kf ∧ ∀ s, Operator.DerivedSound P ch (ch.ops.get s)

/-- R158 is a property of each channel by itself. -/
theorem Fm.derivedSound_iff {P : Params} {fm : Fm} : fm.DerivedSound P ↔ ∀ c, (fm.chan c).DerivedSound P :=
  Iff.rfl

/-! ### What notes and samples leave of an operator -/

/-- `o'` is `o` with no more than its phase, level, envelope state and key-on sources changed: what a note and a sample
change (R154, R157, R185 to R189, R213). -/
def Operator.SameTuning (o o' : Operator) : Prop :=
  o' = { o with phase := o'.phase, att := o'.att, eg := o'.eg, key := o'.key }

theorem Operator.landAttack_sameTuning (o : Operator) (a : Int) : o.SameTuning (o.landAttack a) := by
  unfold Operator.landAttack
  split <;> rfl

theorem Operator.startNote_sameTuning (P : Params) (cnt : BitVec 32) (o : Operator) :
    o.SameTuning (o.startNote P cnt) := by
  unfold Operator.startNote
  split
  · exact Operator.landAttack_sameTuning { o with phase := 0, eg := .attack } _
  · rfl

theorem Operator.keyOn_sameTuning (P : Params) (cnt : BitVec 32) (src : BitVec 2) (o : Operator) :
    o.SameTuning (o.keyOn P cnt src) := by
  have hkey : ∀ o₁ : Operator, o.SameTuning o₁ → o.SameTuning { o₁ with key := o₁.key ||| src } := by
    intro o₁ h
    rw [Operator.SameTuning, h]
  unfold Operator.keyOn
  split
  · exact hkey _ (o.startNote_sameTuning P cnt)
  · exact hkey o rfl

theorem Operator.keyOff_sameTuning (src : BitVec 2) (o : Operator) : o.SameTuning (o.keyOff src) := by
  unfold Operator.keyOff
  split
  · rfl
  · dsimp only
    split <;> rfl

theorem Operator.gate_sameTuning (P : Params) (cnt : BitVec 32) (on : Bool) (o : Operator) :
    o.SameTuning (o.gate P cnt on) := by
  cases on
  · exact o.keyOff_sameTuning 1
  · exact o.keyOn_sameTuning P cnt 1

theorem Operator.fade_sameTuning (o : Operator) (a : Nat) : o.SameTuning (o.fade a) := by
  unfold Operator.fade
  split <;> rfl

theorem Operator.decay1Step_sameTuning (P : Params) (cnt : BitVec 32) (o : Operator) :
    o.SameTuning (o.decay1Step P cnt) := by
  unfold Operator.decay1Step
  dsimp only
  split <;> rfl

theorem Operator.egStep_sameTuning (P : Params) (cnt : BitVec 32) (o : Operator) :
    o.SameTuning (o.egStep P cnt) := by
  unfold Operator.egStep
  split
  · exact o.landAttack_sameTuning _
  · exact o.decay1Step_sameTuning P cnt
  · exact o.fade_sameTuning _
  · exact o.fade_sameTuning _
  · rfl

theorem Operator.phaseAdvance_sameTuning (P : Params) (lfp : Int) (ch : Channel) (o : Operator) :
    o.SameTuning (o.phaseAdvance P lfp ch) :=
  rfl

/-! ### The recomputations -/

variable {P : Params}

theorem Operator.SameTuning.derivedSound {ch : Channel} {o o' : Operator} (h : o.SameTuning o')
    (ho : o.DerivedSound P ch) : o'.DerivedSound P ch := by
  rw [h]
  exact ho

/-- R155 and R156 together leave every derived field of a channel sound, whatever it was before. -/
theorem Channel.refresh_derivedSound (ch : Channel) : ((ch.refreshFreq P).refreshEnvelope P).DerivedSound P := by
  refine ⟨rfl, fun s => ?_⟩
  simp only [Channel.refreshEnvelope, Channel.refreshFreq, Quad.get_map]
  exact ⟨rfl, Operator.refreshEnvelope_derived P ch.kc (Operator.refreshFreq P ch _)⟩

/-- R155 alone after a change of the key fraction: the fields of R156 do not depend on it. -/
theorem Channel.DerivedSound.refreshFreq_kf {ch : Channel} (h : ch.DerivedSound P) (kf : BitVec 6) :
    (Channel.refreshFreq P { ch with kf := kf }).DerivedSound P := by
  obtain ⟨-, hops⟩ := h
  refine ⟨rfl, fun s => ?_⟩
  simp only [Channel.refreshFreq, Quad.get_map]
  exact ⟨rfl, (hops s).2⟩

/-- A change of the operators that keeps each one sound keeps the channel sound. -/
theorem Channel.DerivedSound.withOps {ch : Channel} (h : ch.DerivedSound P) {ops : Quad Operator}
    (hops : ∀ s, (ch.ops.get s).DerivedSound P ch → (ops.get s).DerivedSound P ch) :
    Channel.DerivedSound P { ch with ops := ops } :=
  ⟨h.1, fun s => hops s (h.2 s)⟩

/-! ### The engine -/

/-- A change of one channel that keeps it sound keeps the engine sound. -/
theorem Fm.DerivedSound.onChan {fm : Fm} (h : fm.DerivedSound P) {c : BitVec 3} {f : Channel → Channel}
    (hf : ∀ ch, Channel.DerivedSound P ch → Channel.DerivedSound P (f ch)) : (fm.onChan c f).DerivedSound P := by
  rw [Fm.derivedSound_iff] at h ⊢
  intro c'
  by_cases hc : c' = c
  · subst hc
    rw [Fm.chan_onChan]
    exact hf _ (h c')
  · rw [Fm.chan_onChan_ne fm f hc]
    exact h c'

/-- A change of one operator that keeps it sound keeps the engine sound. -/
theorem Fm.DerivedSound.onOp {fm : Fm} (h : fm.DerivedSound P) {c : BitVec 3} {s : BitVec 2}
    {f : Channel → Operator → Operator} (hf : ∀ ch o, Operator.DerivedSound P ch o → (f ch o).DerivedSound P ch) :
    (fm.onOp c s f).DerivedSound P := by
  refine h.onChan fun ch hch => hch.withOps fun s' ho => ?_
  by_cases hs : s' = s
  · subst hs
    rw [Quad.get_set]
    exact hf ch _ ho
  · rw [Quad.get_set_ne _ _ hs]
    exact ho

/-- A change of every operator that keeps each one's tuning keeps the engine sound. -/
theorem Fm.DerivedSound.onOps {fm : Fm} (h : fm.DerivedSound P) {f : Channel → Operator → Operator}
    (hf : ∀ ch o, Operator.SameTuning o (f ch o)) : (fm.onOps f).DerivedSound P := by
  rw [Fm.derivedSound_iff] at h ⊢
  intro c
  rw [Fm.chan_onOps]
  refine (h c).withOps fun s ho => ?_
  rw [Quad.get_map]
  exact (hf _ _).derivedSound ho

/-- A key-on write gates each of the four slots. -/
theorem Fm.writeKon_derivedSound {fm : Fm} (h : fm.DerivedSound P) (c : BitVec 3) (m1 c1 m2 c2 : Bool) :
    (fm.writeKon P c m1 c1 m2 c2).DerivedSound P := by
  refine h.onChan fun ch hch => hch.withOps ?_
  have hgate := fun on o ho => (Operator.gate_sameTuning P fm.egCnt on o).derivedSound (P := P) (ch := ch) ho
  exact forall_slot ⟨hgate _ _, hgate _ _, hgate _ _, hgate _ _⟩

/-- The level of R156 for a total level. -/
theorem tlAttOf_eq_shiftLeft (tl : BitVec 7) : tlAttOf tl = tl.toNat <<< 3 := by
  rw [tlAttOf, Nat.shiftLeft_eq]

theorem Fm.writeTl_derivedSound {fm : Fm} (h : fm.DerivedSound P) (s : BitVec 2) (c : BitVec 3) (tl : BitVec 7) :
    (fm.writeTl s c tl).DerivedSound P := by
  refine h.onOp fun ch o ho => ?_
  obtain ⟨hfreq, hksr, -, hrest⟩ := ho
  exact ⟨hfreq, hksr, tlAttOf_eq_shiftLeft tl, hrest⟩

/-- Every register write keeps the derived fields (R143 to R152, R158). -/
theorem Fm.write_derivedSound {fm : Fm} (h : fm.DerivedSound P) (r : FmReg) : (fm.write P r).DerivedSound P := by
  cases r with
  | test | noise | clka1 | clka2 | clkb | timer | lfrq | ctW | unassigned => exact h
  | depth selPmd d => cases selPmd <;> exact h
  | kon c m1 c1 m2 c2 => exact Fm.writeKon_derivedSound h c m1 c1 m2 c2
  | rlFbCon | pmsAms => exact h.onChan fun _ hch => hch
  | kc => exact h.onChan fun _ _ => Channel.refresh_derivedSound _
  | kf c kf => exact h.onChan fun _ hch => hch.refreshFreq_kf kf
  | dt1Mul => exact h.onOp fun _ _ ho => ⟨rfl, ho.2⟩
  | tl s c tl => exact Fm.writeTl_derivedSound h s c tl
  | ksAr | amsD1r | d1lRr => exact h.onOp fun ch o ho => ⟨ho.1, Operator.refreshEnvelope_derived P ch.kc _⟩
  | dt2D2r => exact h.onOp fun ch o _ => ⟨rfl, Operator.refreshEnvelope_derived P ch.kc _⟩

theorem Fm.egDivide_derivedSound {fm : Fm} (h : fm.DerivedSound P) : (fm.egDivide P).DerivedSound P := by
  unfold Fm.egDivide
  split
  · exact Fm.DerivedSound.onOps (fm := { fm with egDiv := 0, egCnt := fm.egCnt + 1 }) h
      fun _ o => o.egStep_sameTuning P _
  · exact h

/-- Each channel after a sample is the channel with its output put out, with or without noise. -/
theorem Fm.channelOutputs_get (P : Params) (fm : Fm) (c : BitVec 3) :
    ∃ noise, (fm.channelOutputs P).get c = Channel.output P fm.lfa noise (fm.chan c) :=
  forall_channel (P := fun c => ∃ noise, (fm.channelOutputs P).get c = Channel.output P fm.lfa noise (fm.chan c))
    ⟨⟨none, rfl⟩, ⟨none, rfl⟩, ⟨none, rfl⟩, ⟨none, rfl⟩, ⟨none, rfl⟩, ⟨none, rfl⟩, ⟨none, rfl⟩, ⟨_, rfl⟩⟩ c

theorem Fm.sound_derivedSound {fm : Fm} (h : fm.DerivedSound P) : (fm.sound P).DerivedSound P := by
  have hchans : Fm.DerivedSound P { fm with
      chans := (fm.channelOutputs P).map Prod.fst
      outL := mix 0 (fm.channelOutputs P)
      outR := mix 1 (fm.channelOutputs P) } := by
    rw [Fm.derivedSound_iff] at h ⊢
    intro c
    obtain ⟨noise, hc⟩ := fm.channelOutputs_get P c
    rw [Fm.chan, Octet.get_map, hc]
    exact h c
  exact hchans.onOps fun ch o => o.phaseAdvance_sameTuning P fm.lfp ch

theorem Fm.csmStep_derivedSound {fm : Fm} (h : fm.DerivedSound P) : (fm.csmStep P).DerivedSound P := by
  unfold Fm.csmStep
  split
  · exact Fm.DerivedSound.onOps (fm := { fm with csmReq := 1 }) h fun _ o => o.keyOn_sameTuning P _ 2
  · split
    · exact Fm.DerivedSound.onOps (fm := { fm with csmReq := 0 }) h fun _ o => o.keyOff_sameTuning 2
    · exact h

theorem Fm.timerA_chans (fm : Fm) : fm.timerA.chans = fm.chans := by
  unfold Fm.timerA
  split
  · split <;> rfl
  · rfl

theorem Fm.timerB_chans (fm : Fm) : fm.timerB.chans = fm.chans := by
  unfold Fm.timerB
  split
  · split <;> rfl
  · rfl

/-- The FM timers reach no channel. -/
theorem Fm.timers_chans (fm : Fm) : fm.timers.chans = fm.chans :=
  (Fm.timerB_chans fm.timerA).trans fm.timerA_chans

/-- A sample keeps the derived fields. -/
theorem Fm.advance_derivedSound {fm : Fm} (h : fm.DerivedSound P) : (fm.advance P).DerivedSound P := by
  have hgen : (fm.generators P).DerivedSound P := Fm.egDivide_derivedSound (fm := (fm.lfoAdvance P).noiseAdvance P) h
  have hcsm := Fm.csmStep_derivedSound (Fm.sound_derivedSound hgen)
  rw [Fm.derivedSound_iff] at hcsm ⊢
  intro c
  rw [Fm.advance, Fm.chan, Fm.timers_chans]
  exact hcsm c

/-- RESET leaves the derived fields recomputed (R391). -/
theorem Fm.resetFor_derivedSound (P : Params) : (Fm.resetFor P).DerivedSound P := by
  rw [Fm.derivedSound_iff]
  intro c
  rw [Fm.resetFor, Fm.chan, Octet.get_map]
  exact Channel.refresh_derivedSound _

/-- Every step keeps the derived fields, for any configuration fields. -/
theorem stepWith_keeps_derivedSound {s t : State} (hs : s.fm.DerivedSound P) (h : stepWith P s = .next t) :
    t.fm.DerivedSound P :=
  stepWith_keeps_fm (Q := Fm.DerivedSound P) (fun _ _ h => h) (fun _ r h => Fm.write_derivedSound h r)
    (fun _ h => Fm.advance_derivedSound h) (Fm.resetFor_derivedSound P) hs h

end Sys2Proof.Machine

/-! The chip-wide ranges of the FM engine (spec/10_state.md R20, R24, spec/41_fm_generator.md R172, R222), for any
configuration fields (R7). -/

namespace Sys2Proof.Machine

/-! ### The LFO's outputs -/

/-- The waveform values of R174, whatever the open noise table holds. -/
theorem lfoWaveAt_bounds (w : BitVec 2) (p : BitVec 8) :
    (lfoWaveAt w p).1 ≤ 255 ∧ -128 ≤ (lfoWaveAt w p).2 ∧ (lfoWaveAt w p).2 ≤ 128 := by
  have hp : p.toNat < 256 := p.isLt
  have hnoise : (Config.lfoNoiseWave p).toNat < 256 := (Config.lfoNoiseWave p).isLt
  unfold lfoWaveAt
  split <;> dsimp only <;> (try split_ifs) <;> omega

/-- The amplitude output of a waveform value and a depth (R174). -/
theorem lfa_le {a d : Nat} (ha : a ≤ 255) (hd : d < 128) : a * d / 128 ≤ 254 := by
  have hprod : a * d ≤ 255 * 127 := Nat.mul_le_mul ha (Nat.le_of_lt_succ hd)
  omega

/-- The pitch output of a waveform value and a depth (R174). -/
theorem lfp_bounds {x : Int} {d : Nat} (hlo : -128 ≤ x) (hhi : x ≤ 128) (hd : d < 128) :
    -127 ≤ (x * (d : Int)).tdiv 128 ∧ (x * (d : Int)).tdiv 128 ≤ 127 := by
  have hlo' : -128 * 127 ≤ x * (d : Int) := by nlinarith
  have hhi' : x * (d : Int) ≤ 128 * 127 := by nlinarith
  rw [Int.tdiv_eq_ediv]
  have hsign : Int.sign 128 = 1 := rfl
  split_ifs <;> omega

/-- A clamped mix fits 16 signed bits (R210). -/
theorem mix_bounds (side : Nat) (cs : Octet (Channel × Int)) : -32768 ≤ mix side cs ∧ mix side cs ≤ 32767 := by
  unfold mix clamp
  omega

/-! ### The timers' reload values -/

theorem Fm.taPeriod_bounds (fm : Fm) : 1 ≤ fm.taPeriod ∧ fm.taPeriod ≤ 1024 := by
  have : fm.ta.toNat < 1024 := fm.ta.isLt
  unfold Fm.taPeriod
  omega

theorem Fm.tbPeriod_bounds (fm : Fm) : 1 ≤ fm.tbPeriod ∧ fm.tbPeriod ≤ 4096 := by
  have : fm.tb.toNat < 256 := fm.tb.isLt
  unfold Fm.tbPeriod
  omega

/-! ### The register writes -/

variable {fm : Fm}

theorem Fm.writeTest_rangesSound (h : fm.RangesSound) (v : Byte) : (fm.writeTest v).RangesSound := by
  obtain ⟨hdiv, hlfa, hlfp, hta, htb, hla, hlb, hcsm, hl, hr, hirq, -⟩ := h
  exact ⟨hdiv, hlfa, hlfp, hta, htb, hla, hlb, hcsm, hl, hr, hirq, fun hv => if_pos hv⟩

/-- A count in range, which a rising LOAD bit replaces by the period (R139). -/
theorem loadedCount_bounds {load old : Bool} {period count top : Nat} (hp : 1 ≤ period ∧ period ≤ top)
    (hc : count ≤ top) (hold : old = true → 1 ≤ count) :
    (if load && !old then period else count) ≤ top
      ∧ (load = true → 1 ≤ if load && !old then period else count) := by
  obtain ⟨hp1, hptop⟩ := hp
  cases load <;> cases old <;> simp_all

theorem Fm.writeTimer_rangesSound (h : fm.RangesSound) (csm rb ra eb ea lb la : Bool) :
    (fm.writeTimer csm rb ra eb ea lb la).RangesSound := by
  obtain ⟨hdiv, hlfa, hlfp, hta, htb, hla, hlb, hcsm, hl, hr, -, htest⟩ := h
  obtain ⟨hta', hla'⟩ := loadedCount_bounds (load := la) fm.taPeriod_bounds hta hla
  obtain ⟨htb', hlb'⟩ := loadedCount_bounds (load := lb) fm.tbPeriod_bounds htb hlb
  exact ⟨hdiv, hlfa, hlfp, hta', htb', hla', hlb', hcsm, hl, hr, rfl, htest⟩

/-- Every register write keeps the ranges: the writes to a channel or an operator reach none of the integers. -/
theorem Fm.write_rangesSound (P : Params) (h : fm.RangesSound) (r : FmReg) : (fm.write P r).RangesSound := by
  cases r with
  | test v => exact Fm.writeTest_rangesSound h v
  | timer csm rb ra eb ea lb la => exact Fm.writeTimer_rangesSound h csm rb ra eb ea lb la
  | depth selPmd d => cases selPmd <;> exact h
  | _ => exact h

/-! ### A sample -/

theorem Fm.lfoAdvance_rangesSound (P : Params) (h : fm.RangesSound) : (fm.lfoAdvance P).RangesSound := by
  obtain ⟨hdiv, -, -, hta, htb, hla, hlb, hcsm, hl, hr, hirq, -⟩ := h
  obtain ⟨hwa, hwlo, hwhi⟩ := lfoWaveAt_bounds fm.lfoWave (fm.lfoAdvance P).lfoPhase
  refine ⟨hdiv, lfa_le hwa fm.amd.isLt, lfp_bounds hwlo hwhi fm.pmd.isLt, hta, htb, hla, hlb, hcsm, hl, hr, hirq,
    fun htest => ?_⟩
  exact congrArg Prod.fst (if_pos htest)

theorem Fm.egDivide_rangesSound (P : Params) (h : fm.RangesSound) : (fm.egDivide P).RangesSound := by
  obtain ⟨hdiv, hrest⟩ := h
  unfold Fm.egDivide
  split
  next => exact ⟨Nat.zero_le 2, hrest⟩
  next hne => exact ⟨by show fm.egDiv + 1 ≤ 2; omega, hrest⟩

theorem Fm.sound_rangesSound (P : Params) (h : fm.RangesSound) : (fm.sound P).RangesSound := by
  obtain ⟨hdiv, hlfa, hlfp, hta, htb, hla, hlb, hcsm, -, -, hirq, htest⟩ := h
  exact ⟨hdiv, hlfa, hlfp, hta, htb, hla, hlb, hcsm, mix_bounds 0 _, mix_bounds 1 _, hirq, htest⟩

theorem Fm.csmStep_rangesSound (P : Params) (h : fm.RangesSound) : (fm.csmStep P).RangesSound := by
  obtain ⟨hdiv, hlfa, hlfp, hta, htb, hla, hlb, hcsm, hl, hr, hirq, htest⟩ := h
  unfold Fm.csmStep
  split
  · exact ⟨hdiv, hlfa, hlfp, hta, htb, hla, hlb, Nat.le_succ 1, hl, hr, hirq, htest⟩
  · split
    · exact ⟨hdiv, hlfa, hlfp, hta, htb, hla, hlb, Nat.zero_le 2, hl, hr, hirq, htest⟩
    · exact ⟨hdiv, hlfa, hlfp, hta, htb, hla, hlb, hcsm, hl, hr, hirq, htest⟩

/-- Timer A with the request recomputed (R220, R222). -/
theorem Fm.timerA_rangesSound (h : fm.RangesSound) : fm.timerA.refreshIrq.RangesSound := by
  obtain ⟨hdiv, hlfa, hlfp, hta, htb, hla, hlb, hcsm, hl, hr, -, htest⟩ := h
  obtain ⟨hp1, hptop⟩ := fm.taPeriod_bounds
  unfold Fm.timerA
  split
  · split
    next =>
      have hcsm' : (if fm.csm then 2 else fm.csmReq) ≤ 2 := by split <;> omega
      exact ⟨hdiv, hlfa, hlfp, hptop, htb, fun _ => hp1, hlb, hcsm', hl, hr, rfl, htest⟩
    next hne =>
      exact ⟨hdiv, hlfa, hlfp, (Nat.sub_le _ _).trans hta, htb, fun _ => Nat.one_le_iff_ne_zero.mpr hne, hlb, hcsm,
        hl, hr, rfl, htest⟩
  · exact ⟨hdiv, hlfa, hlfp, hta, htb, hla, hlb, hcsm, hl, hr, rfl, htest⟩

/-- Timer B with the request recomputed (R221, R222). -/
theorem Fm.timerB_rangesSound (h : fm.RangesSound) : fm.timerB.refreshIrq.RangesSound := by
  obtain ⟨hdiv, hlfa, hlfp, hta, htb, hla, hlb, hcsm, hl, hr, -, htest⟩ := h
  obtain ⟨hp1, hptop⟩ := fm.tbPeriod_bounds
  unfold Fm.timerB
  split
  · split
    next => exact ⟨hdiv, hlfa, hlfp, hta, hptop, hla, fun _ => hp1, hcsm, hl, hr, rfl, htest⟩
    next hne =>
      exact ⟨hdiv, hlfa, hlfp, hta, (Nat.sub_le _ _).trans htb, hla, fun _ => Nat.one_le_iff_ne_zero.mpr hne, hcsm,
        hl, hr, rfl, htest⟩
  · exact ⟨hdiv, hlfa, hlfp, hta, htb, hla, hlb, hcsm, hl, hr, rfl, htest⟩

/-- The request that timer B finds does not matter: it is recomputed after it. -/
theorem Fm.timerB_refreshIrq (fm : Fm) : fm.refreshIrq.timerB.refreshIrq = fm.timerB.refreshIrq := by
  by_cases hload : fm.loadB = true
  · by_cases hzero : fm.tbCnt - 1 = 0 <;> simp [Fm.timerB, Fm.refreshIrq, Fm.tbPeriod, hload, hzero]
  · simp [Fm.timerB, Fm.refreshIrq, hload]

theorem Fm.timers_rangesSound (h : fm.RangesSound) : fm.timers.RangesSound := by
  rw [Fm.timers, ← Fm.timerB_refreshIrq]
  exact Fm.timerB_rangesSound (Fm.timerA_rangesSound h)

/-- A sample keeps the ranges; the noise generator reaches none of the integers. -/
theorem Fm.advance_rangesSound (P : Params) (h : fm.RangesSound) : (fm.advance P).RangesSound := by
  have hnoise : ((fm.lfoAdvance P).noiseAdvance P).RangesSound := Fm.lfoAdvance_rangesSound P h
  have hgen : (fm.generators P).RangesSound := Fm.egDivide_rangesSound P hnoise
  exact Fm.timers_rangesSound (Fm.csmStep_rangesSound P (Fm.sound_rangesSound P hgen))

theorem Fm.resetFor_rangesSound (P : Params) : (Fm.resetFor P).RangesSound := by
  have hreset : Fm.reset.RangesSound := by unfold Fm.RangesSound; decide
  exact hreset

/-- Every step keeps the ranges, for any configuration fields. -/
theorem stepWith_keeps_rangesSound {P : Params} {s t : State} (hs : s.fm.RangesSound) (h : stepWith P s = .next t) :
    t.fm.RangesSound :=
  stepWith_keeps_fm (Q := Fm.RangesSound) (fun _ _ h => h) (fun _ r h => Fm.write_rangesSound P h r)
    (fun _ h => Fm.advance_rangesSound P h) (Fm.resetFor_rangesSound P) hs h

end Sys2Proof.Machine

/-! Every operation the decoder answers is well formed (spec/30_encoding.md R90 to R97, R105, R115, R120). -/

namespace Sys2Proof

theorem ModeWord.wellFormed_iff (m : ModeWord) : m.wellFormed = true ↔ m.ma = 0 ∨ m.ma = 1 := by
  simp [ModeWord.wellFormed]

/-- A plain mode word has bit 6 clear, so its group A is basic or strobed (R115, R277). -/
theorem modeWordOf_wellFormed : ∀ v : Byte, v.getLsbD 6 = false → (modeWordOf v).wellFormed = true := by
  decide

theorem decodeMode_wellFormed {v : Byte} {m : ModeWord} (h : decodeMode v = .word m) : m.wellFormed = true := by
  unfold decodeMode at h
  split at h
  · split at h
    · contradiction
    next hbit =>
      injection h with h
      exact h ▸ modeWordOf_wellFormed v (Bool.eq_false_iff.mpr hbit)
  · contradiction

theorem decodePitCommand_wellFormed (v : Byte) : (decodePitCommand v).wellFormed = true := by
  unfold decodePitCommand
  split
  · rfl
  next hsc =>
    split
    · exact bne_iff_ne.mpr hsc
    next hrw => exact Bool.and_eq_true_iff.mpr ⟨bne_iff_ne.mpr hsc, bne_iff_ne.mpr hrw⟩

theorem decodeHostWrite_wellFormed (w : BitVec 12) : (decodeHostWrite w).wellFormed = true := by
  unfold decodeHostWrite
  dsimp only
  split
  case h_4 =>
    split
    next => rfl
    next hm => exact decodeMode_wellFormed hm
    next => rfl
  case h_8 => exact decodePitCommand_wellFormed _
  case h_9 => split <;> rfl
  all_goals rfl

theorem decodeHostRead_wellFormed (w : BitVec 4) : (decodeHostRead w).wellFormed = true := by
  unfold decodeHostRead
  split
  case h_9 => split <;> rfl
  all_goals rfl

theorem decodeFwWrite_wellFormed (r : FwReg) (v : Byte) : (decodeFwWrite r v).wellFormed = true := by
  cases r with
  | mode =>
    unfold decodeFwWrite
    dsimp only
    split
    next => rfl
    next hm => exact decodeMode_wellFormed hm
    next => rfl
  | _ => rfl

theorem unassignedAt_wellFormed (a v : Byte) : (unassignedAt a v).wellFormed = true := by
  unfold unassignedAt
  split <;> rfl

theorem decodeFmPairRow_wellFormed (a v : Byte) : (decodeFmPairRow a v).wellFormed = true := by
  unfold decodeFmPairRow
  cases decodeFm a v with
  | unassigned => exact unassignedAt_wellFormed a v
  | _ => rfl

theorem decodeMidiSystem_wellFormed (s : Stream) (b : Byte) : (decodeMidiSystem s b).wellFormed = true := by
  unfold decodeMidiSystem
  split <;> rfl

theorem decodeMidi_wellFormed (s : Stream) (b : Byte) : (decodeMidi s b).wellFormed = true := by
  unfold decodeMidi
  split
  case h_8 => exact decodeMidiSystem_wellFormed s b
  all_goals rfl

theorem decodeWord_wellFormed (p : Path) (w : Nat) : (decodeWord p w).wellFormed = true := by
  cases p with
  | hostWrite => exact decodeHostWrite_wellFormed _
  | hostRead => exact decodeHostRead_wellFormed _
  | fwWrite r => exact decodeFwWrite_wellFormed r _
  | fwRead r => cases r <;> rfl
  | fmWrite => exact decodeFmPairRow_wellFormed _ _
  | midi s => exact decodeMidi_wellFormed s _
  | sample | samples | tick | fmPair | flow | midiOp | reset => rfl

theorem decode_wellFormed {a : Access} {i : Instr} (h : decode a = .ok i) : i.wellFormed = true := by
  unfold decode at h
  split at h
  · injection h with h
    exact h ▸ decodeWord_wellFormed _ _
  · split at h <;> contradiction

end Sys2Proof

/-! The handshake and the network at rest (spec/43_piu.md R290, R291, spec/44_interrupt_network.md R320 to R326), for
any configuration fields (R7). -/

namespace Sys2Proof.Machine

/-! ### The units of a settled pair -/

/-- What `HandshakeSettled` says of one unit by itself: its lines that are wired to nothing are 0 (R271), and it is not
bidirectional (R277). -/
def Piu.WiredPlain (p : Piu) : PiuId → Prop
  | .h => (p.stbAIn = false ∧ p.ackBIn = false) ∧ (p.ma = 0 ∨ p.ma = 1)
  | .f => (p.ackAIn = false ∧ p.stbBIn = false) ∧ (p.ma = 0 ∨ p.ma = 1)

theorem handshakeSettled_iff {h f : Piu} :
    HandshakeSettled h f ↔ HandshakeAtRest h f ∧ h.WiredPlain .h ∧ f.WiredPlain .f := by
  simp only [HandshakeSettled, Piu.WiredPlain]
  tauto

theorem Piu.WiredPlain.setMode {p : Piu} {q : PiuId} (h : p.WiredPlain q) {m : ModeWord} (hm : m.wellFormed = true) :
    (p.setMode m).WiredPlain q := by
  cases q <;> exact ⟨h.1, m.wellFormed_iff.mp hm⟩

theorem Piu.WiredPlain.bitSet {p : Piu} {q : PiuId} (h : p.WiredPlain q) (n : BitVec 3) (b : Bool) :
    (p.bitSet n b).WiredPlain q := by
  unfold Piu.bitSet
  cases q <;> split_ifs <;> exact h

theorem Piu.WiredPlain.writeData {p : Piu} {q : PiuId} (h : p.WiredPlain q) (x : Port) (v : Byte) :
    (p.writeData x v).WiredPlain q := by
  unfold Piu.writeData
  cases x <;> cases q <;> dsimp only <;> split <;> exact h

theorem Piu.WiredPlain.setIbf {p : Piu} {q : PiuId} (h : p.WiredPlain q) (x : Port) (b : Bool) :
    (p.setIbf x b).WiredPlain q := by
  cases x <;> cases q <;> exact h

theorem Piu.WiredPlain.writeC {p : Piu} {q : PiuId} (h : p.WiredPlain q) (v : Byte) : (p.writeC v).WiredPlain q := by
  cases q <;> exact h

/-! ### `PIU_UPDATE` and `NET_UPDATE` -/

/-- `PIU_UPDATE()` leaves the pair at rest, whatever it was before (R290, R291). -/
theorem piuSettle_atRest (h f : Piu) : HandshakeAtRest (piuSettle h f).1 (piuSettle h f).2 := by
  rw [piuSettle_eq]
  exact ⟨⟨rfl, rfl, rfl, rfl⟩, fun x => by cases x <;> exact ⟨rfl, rfl⟩⟩

theorem piuSettle_wiredPlain_h {h : Piu} (hh : h.WiredPlain .h) (f : Piu) : (piuSettle h f).1.WiredPlain .h := by
  rw [piuSettle_eq]
  exact hh

theorem piuSettle_wiredPlain_f {f : Piu} (hf : f.WiredPlain .f) (h : Piu) : (piuSettle h f).2.WiredPlain .f := by
  rw [piuSettle_eq]
  exact hf

/-- `NET_UPDATE()` leaves the network at rest, whatever it was before (R320 to R326). -/
theorem State.netUpdate_netSettled (s : State) : s.netUpdate.NetSettled := by
  rw [State.netUpdate_eq]
  refine ⟨rfl, fun htc => ?_, rfl, rfl, rfl, rfl, rfl⟩
  exact if_pos htc

/-! ### The block at rest -/

/-- The handshake and the network are at rest. -/
def State.Settled (s : State) : Prop :=
  HandshakeSettled s.piuH s.piuF ∧ s.NetSettled

/-- A settled unit of the pair. -/
theorem State.Settled.wiredPlain {s : State} (h : s.Settled) (q : PiuId) : (s.piu q).WiredPlain q := by
  obtain ⟨-, hh, hf⟩ := handshakeSettled_iff.mp h.1
  cases q
  · exact hh
  · exact hf

/-- An update that leaves the units, the network and the timer output alone. -/
theorem State.Settled.congr {s t : State} (h : s.Settled) (hH : t.piuH = s.piuH) (hF : t.piuF = s.piuF)
    (hnet : t.net = s.net) (hout : t.pit.out0 = s.pit.out0) : t.Settled := by
  unfold State.Settled State.NetSettled at h ⊢
  rw [hH, hF, hnet, hout]
  exact h

/-- `NET_UPDATE()` settles the network and leaves the handshake settled. -/
theorem State.netUpdate_settled {s : State} (h : HandshakeSettled s.piuH s.piuF) : s.netUpdate.Settled :=
  ⟨by rw [State.netUpdate_piuH, State.netUpdate_piuF]; exact h, s.netUpdate_netSettled⟩

/-- `PIU_UPDATE()` after a write to one unit of a settled pair settles the block again. -/
theorem State.Settled.piuUpdate_setPiu {s : State} (h : s.Settled) {q : PiuId} {p : Piu} (hp : p.WiredPlain q) :
    (s.setPiu q p).piuUpdate.Settled := by
  obtain ⟨hh, hf⟩ : (s.setPiu q p).piuH.WiredPlain .h ∧ (s.setPiu q p).piuF.WiredPlain .f := by
    cases q
    · exact ⟨hp, h.wiredPlain .f⟩
    · exact ⟨h.wiredPlain .h, hp⟩
  rw [State.piuUpdate_eq]
  exact State.netUpdate_settled (handshakeSettled_iff.mpr
    ⟨piuSettle_atRest _ _, piuSettle_wiredPlain_h hh _, piuSettle_wiredPlain_f hf _⟩)

theorem State.Settled.foldl_driveOut0 {s : State} (h : s.Settled) (levels : List Bool) :
    (levels.foldl State.driveOut0 s).Settled := by
  induction levels generalizing s with
  | nil => exact h
  | cons l ls ih => exact ih (State.netUpdate_settled (s := s.setPit { s.pit with out0 := l }) h.1)

theorem State.Settled.setPit {s : State} (h : s.Settled) {p : Pit} (hout : p.out0 = s.pit.out0) :
    (s.setPit p).Settled :=
  h.congr rfl rfl rfl hout

theorem State.Settled.pitTickWith {s : State} (h : s.Settled) (m : TickMode) : (s.pitTickWith m).Settled := by
  unfold State.pitTickWith
  refine State.Settled.foldl_driveOut0 (h.setPit ?_) _
  rfl

theorem State.Settled.onSelected {s : State} (h : s.Settled) (sc : BitVec 2) (f : Counter → Counter) :
    (s.setPit (s.pit.onSelected sc f)).Settled := by
  refine h.setPit ?_
  unfold Pit.onSelected
  split
  · exact Pit.set_out0 _ _ _
  · rfl

theorem State.Settled.output {s : State} (h : s.Settled) (e : Event) : (s.output e).Settled :=
  h.congr rfl rfl rfl rfl

theorem State.Settled.takeDraw {s : State} (h : s.Settled) : s.takeDraw.Settled :=
  h.congr rfl rfl rfl rfl

theorem State.Settled.setMpc {s : State} (h : s.Settled) (st : Stream) (m : Mpc) : (s.setMpc st m).Settled :=
  h.congr (by simp) (by simp) (by simp) (by simp)

theorem State.Settled.midiFeedWith {s : State} (h : s.Settled) (T : MpcTables) (st : Stream) (b : Byte) :
    (s.midiFeedWith T st b).Settled := by
  rw [State.midiFeedWith_eq]
  exact (h.setMpc st _).congr rfl rfl rfl rfl

theorem State.Settled.piuWrite {s : State} (h : s.Settled) (q : PiuId) (x : Port) (v : Byte) :
    (s.piuWrite q x v).Settled := by
  unfold State.piuWrite
  split
  · exact h
  · exact h.piuUpdate_setPiu ((h.wiredPlain q).writeData x v)

theorem State.Settled.piuReadPlain {s : State} (h : s.Settled) (q : PiuId) (x : Port) :
    (s.piuReadPlain q x).Settled := by
  unfold State.piuReadPlain
  split
  · exact h.output _
  · split
    · exact h.output _
    · exact h.takeDraw.output _

theorem State.Settled.piuRead {s : State} (h : s.Settled) (q : PiuId) (x : Port) : (s.piuRead q x).Settled := by
  unfold State.piuRead
  split
  · exact (h.piuUpdate_setPiu ((h.wiredPlain q).setIbf x false)).output _
  · exact h.piuReadPlain q x

theorem State.Settled.advanceSamples {s : State} (h : s.Settled) (P : Params) (n : Nat) :
    (State.advanceSamples P n s).Settled := by
  induction n generalizing s with
  | zero => exact h
  | succ n ih => exact ih (h.congr rfl rfl rfl rfl)

theorem State.reset_settled : State.reset.Settled :=
  ⟨⟨⟨by decide, fun x => by cases x <;> decide⟩, by decide, by decide⟩, by unfold State.NetSettled; decide⟩

theorem State.resetOp_settled (P : Params) (s : State) : (s.resetOp P).Settled :=
  State.reset_settled.congr rfl rfl rfl rfl

/-- Every shared operation of a well-formed row leaves the block settled, for any configuration fields. -/
theorem Moves.settled {P : Params} {s t : State} (hm : Moves P true s t) (h : s.Settled) : t.Settled := by
  cases hm with
  | same => exact h
  | fm | refuse => exact h.congr rfl rfl rfl rfl
  | output e => exact h.output e
  | draw e => exact h.takeDraw.output e
  | latch | control => exact h.onSelected ..
  | pitWrite => exact h.setPit (Pit.set_out0 ..)
  | pitRead => exact State.Settled.output (h.setPit (Pit.set_out0 ..)) _
  | tick => exact h.pitTickWith _
  | piuWrite => exact h.piuWrite ..
  | piuRead => exact h.piuRead ..
  | piuWriteC q v => exact h.piuUpdate_setPiu ((h.wiredPlain q).writeC v)
  | piuSetMode q m hwf => exact h.piuUpdate_setPiu ((h.wiredPlain q).setMode (hwf rfl))
  | piuBitSet q n b => exact h.piuUpdate_setPiu ((h.wiredPlain q).bitSet n b)
  | writeTcr v => exact State.netUpdate_settled (s := s.setNet { s.net with tcr := v }) h.1
  | midiFeed => exact h.midiFeedWith ..
  | setFlow => exact h.setMpc ..
  | samples n => exact h.advanceSamples P n
  | reset => exact s.resetOp_settled P

/-- Every step keeps the block settled, for any configuration fields: a record the decoder takes is well formed. -/
theorem stepWith_keeps_settled {P : Params} {s t : State} (hs : s.Settled) (h : stepWith P s = .next t) :
    t.Settled := by
  rcases stepWith_next h with ⟨-, rfl⟩ | ⟨a, rest, i, -, hd, he⟩
  · exact hs
  · have hmove := execWith_moves he
    rw [decode_wellFormed hd] at hmove
    exact hmove.settled (hs.congr rfl rfl rfl rfl)

end Sys2Proof.Machine

/-! The machine for any configuration fields (spec/00_scope.md R7). -/

namespace Sys2Proof.Machine

/-- Every operation answers a next state, for any configuration fields (R370). -/
theorem execWith_completes (P : Params) (i : Instr) (s : State) : ∃ t, execWith P i s = .next t := by
  cases i <;> exact ⟨_, rfl⟩

/-- Settles O60, from the invariants of each unit for any configuration fields. -/
theorem anyParametersKeepInvariants : Obligations.AnyParametersKeepInvariants := by
  refine ⟨fun P => ⟨execWith_completes P, fun _ _ => stepWith_keeps_derivedSound,
    fun _ _ => stepWith_keeps_rangesSound, fun _ _ hpair hnet h => stepWith_keeps_settled ⟨hpair, hnet⟩ h, fun s => ?_⟩,
    exec_eq_execWith, step_eq_stepWith⟩
  exact ⟨s.resetOp P, rfl, Fm.resetFor_derivedSound P⟩

end Sys2Proof.Machine

/-! The envelope of every operator (spec/10_state.md R25, spec/40_fm_registers.md R154, R157, spec/41_fm_generator.md
R181 to R189), with the default `EG_INC` (log 8). -/

namespace Sys2Proof.Machine

/-! ### The increments -/

/-- No entry of the default `EG_INC` is above 16 (R181, log 8). -/
theorem egInc_le (row cycle : Nat) : egInc row cycle ≤ 16 := by
  have htable : ∀ l ∈ egIncRows, ∀ x ∈ l, x ≤ 16 := by decide
  have hrow : ∀ x ∈ egIncRows.getD row [], x ≤ 16 := by
    rw [List.getD_eq_getElem?_getD]
    cases hr : egIncRows[row]? with
    | none => simp
    | some l => exact htable l (List.mem_of_getElem? hr)
  rw [egInc, List.getD_eq_getElem?_getD]
  cases hc : (egIncRows.getD row [])[cycle]? with
  | none => exact Nat.zero_le 16
  | some x => exact hrow x (List.mem_of_getElem? hc)

/-- A decay or release step raises the level by 16 at most (R186 to R188). -/
theorem RisesTo.le_add {cnt : BitVec 32} {r : EgRate} {a b : Nat} (h : RisesTo cnt r a b) : b ≤ a + 16 := by
  obtain ⟨hdue, hnot⟩ := h
  by_cases hd : DueAt cnt r
  · rw [hdue hd]
    exact Nat.add_le_add_left (egInc_le _ _) a
  · rw [hnot hd]
    exact Nat.le_add_right a 16

/-- An attack step does not raise the level (R154, R185). -/
theorem attackTarget_le (att inc : Nat) : attackTarget att inc ≤ att := by
  have hprod : (-(att : Int) - 1) * (inc : Int) ≤ 0 := mul_nonpos_of_nonpos_of_nonneg (by omega) (by omega)
  unfold attackTarget
  omega

/-- The sustain thresholds of R156. -/
theorem d1lAttOf_le (d1l : BitVec 4) : d1lAttOf d1l ≤ 992 := by
  revert d1l
  decide

/-! ### One operator -/

variable {o : Operator}

theorem Operator.EnvelopeSound.key_ne_zero (h : o.EnvelopeSound) (heg : o.eg = .attack) : o.key ≠ 0 := by
  obtain ⟨-, -, -, hheld⟩ := h
  exact fun hkey => hheld hkey heg

/-- An attack that moves the level down to `a` and has a key-on source (R154, R185); a key-on also starts the phase. -/
theorem Operator.EnvelopeSound.attackTo (h : o.EnvelopeSound) {a : Int} (ha : a ≤ o.att) {key : BitVec 2}
    (hkey : key ≠ 0) (phase : BitVec 32) :
    Operator.EnvelopeSound { o with
      phase := phase, att := (max 0 a).toNat, eg := if a ≤ 0 then .decay1 else .attack, key := key } := by
  obtain ⟨hatt, hsustain, -, -⟩ := h
  refine ⟨?_, hsustain, fun hdecay => ?_, fun hzero => absurd hzero hkey⟩
  · show (max 0 a).toNat ≤ 1023
    omega
  · show (max 0 a).toNat < 992
    have hland : a ≤ 0 := by
      by_contra hpos
      simp [hpos] at hdecay
    omega

theorem Operator.EnvelopeSound.keyOn (h : o.EnvelopeSound) (cnt : BitVec 32) {src : BitVec 2} (hsrc : src ≠ 0) :
    (o.keyOn params cnt src).EnvelopeSound := by
  have hres := o.keyOn_result cnt src
  unfold KeyOnResult at hres
  split at hres
  next =>
    rw [hres]
    exact h.attackTo (attackTarget_le _ _) hsrc 0
  next hkey =>
    rw [hres]
    obtain ⟨hatt, hsustain, hdecay, -⟩ := h
    exact ⟨hatt, hsustain, hdecay, fun hor => absurd (BitVec.or_eq_zero_iff.mp hor).1 hkey⟩

theorem Operator.EnvelopeSound.keyOff (h : o.EnvelopeSound) (src : BitVec 2) : (o.keyOff src).EnvelopeSound := by
  have hres := o.keyOff_result src
  unfold KeyOffResult at hres
  split at hres
  next => rwa [hres]
  next =>
    obtain ⟨hatt, hsustain, hdecay, -⟩ := h
    rw [hres]
    refine ⟨hatt, hsustain, fun heg => hdecay ?_, fun hkey heg => ?_⟩
    · dsimp only at heg
      split at heg
      · contradiction
      · exact heg
    · dsimp only at hkey heg
      split at heg
      next => contradiction
      next hlow => exact hlow ⟨hkey, .inr (.inr heg)⟩

theorem Operator.EnvelopeSound.gate (h : o.EnvelopeSound) (cnt : BitVec 32) (on : Bool) :
    (o.gate params cnt on).EnvelopeSound := by
  cases on
  · exact h.keyOff 1
  · exact h.keyOn cnt (by decide)

/-- A level that fades to at most 1023, in a state other than ATTACK and DECAY1 (R187, R188). -/
theorem Operator.EnvelopeSound.fadeTo (h : o.EnvelopeSound) (a : Nat) {eg : EgState} (hdecay : eg ≠ .decay1)
    (hattack : eg ≠ .attack) : Operator.EnvelopeSound { o with att := min a 1023, eg := eg } := by
  obtain ⟨-, hsustain, -⟩ := h
  exact ⟨min_le_right a 1023, hsustain, fun heg => absurd heg hdecay, fun _ => hattack⟩

/-- A DECAY1 step: below 992 a rise of 16 stays in range, and DECAY1 goes on only below the sustain threshold (R186). -/
theorem Operator.EnvelopeSound.decayTo (h : o.EnvelopeSound) (heg : o.eg = .decay1) {a : Nat} (ha : a ≤ o.att + 16) :
    Operator.EnvelopeSound { o with att := a, eg := if o.d1lAtt ≤ a then .decay2 else .decay1 } := by
  obtain ⟨-, hsustain, hdecay, -⟩ := h
  have hatt : o.att < 992 := hdecay heg
  refine ⟨?_, hsustain, fun hstays => ?_, fun _ => ?_⟩
  · show a ≤ 1023
    omega
  · show a < 992
    dsimp only at hstays
    split at hstays
    · contradiction
    · omega
  · dsimp only
    split <;> decide

theorem Operator.EnvelopeSound.egStep (h : o.EnvelopeSound) (cnt : BitVec 32) :
    (o.egStep params cnt).EnvelopeSound := by
  have hres := o.egStep_result cnt
  unfold EnvelopeStepResult at hres
  cases heg : o.eg <;> rw [heg] at hres
  case attack =>
    obtain ⟨a, hdue, hnot, hres⟩ := hres
    have ha : a ≤ o.att := by
      by_cases hd : DueAt cnt o.rateAr
      · exact (hdue hd).trans_le (attackTarget_le _ _)
      · exact (hnot hd).le
    rw [hres]
    exact h.attackTo ha (h.key_ne_zero heg) o.phase
  case decay1 =>
    obtain ⟨a, hrise, hres⟩ := hres
    rw [hres]
    exact h.decayTo heg hrise.le_add
  case decay2 | release =>
    obtain ⟨a, -, hres⟩ := hres
    rw [hres]
    exact h.fadeTo a (by split <;> decide) (by split <;> decide)
  case off => rwa [hres]

/-- The recomputation of R156 gives a sustain threshold in range and leaves the level and the state alone. -/
theorem Operator.EnvelopeSound.refreshEnvelope (h : o.EnvelopeSound) (P : Params) (kc : BitVec 7) :
    (o.refreshEnvelope P kc).EnvelopeSound := by
  obtain ⟨hatt, -, hrest⟩ := h
  exact ⟨hatt, d1lAttOf_le o.d1l, hrest⟩

/-! ### The engine -/

variable {fm : Fm}

/-- A change of one channel that leaves its operators sound. -/
theorem Fm.EnvelopeSound.onChan (h : fm.EnvelopeSound) {c : BitVec 3} {f : Channel → Channel}
    (hf : ∀ ch : Channel, (∀ s, (ch.ops.get s).EnvelopeSound) → ∀ s, ((f ch).ops.get s).EnvelopeSound) :
    (fm.onChan c f).EnvelopeSound := by
  intro c' s
  unfold Fm.op
  by_cases hc : c' = c
  · subst hc
    rw [Fm.chan_onChan]
    exact hf _ (h c') s
  · rw [Fm.chan_onChan_ne fm f hc]
    exact h c' s

/-- A change of one operator that leaves it sound. -/
theorem Fm.EnvelopeSound.onOp (h : fm.EnvelopeSound) {c : BitVec 3} {s : BitVec 2} {f : Channel → Operator → Operator}
    (hf : ∀ ch o, Operator.EnvelopeSound o → (f ch o).EnvelopeSound) : (fm.onOp c s f).EnvelopeSound := by
  refine h.onChan fun ch hch s' => ?_
  by_cases hs : s' = s
  · subst hs
    rw [Quad.get_set]
    exact hf ch _ (hch s')
  · rw [Quad.get_set_ne _ _ hs]
    exact hch s'

/-- A change of every operator that leaves each one sound. -/
theorem Fm.EnvelopeSound.onOps (h : fm.EnvelopeSound) {f : Channel → Operator → Operator}
    (hf : ∀ ch o, Operator.EnvelopeSound o → (f ch o).EnvelopeSound) : (fm.onOps f).EnvelopeSound := by
  intro c s
  rw [Fm.op_onOps]
  exact hf _ _ (h c s)

theorem Fm.writeKon_envelopeSound (h : fm.EnvelopeSound) (c : BitVec 3) (m1 c1 m2 c2 : Bool) :
    (fm.writeKon params c m1 c1 m2 c2).EnvelopeSound :=
  h.onChan fun _ hch =>
    forall_slot ⟨(hch 0).gate fm.egCnt m1, (hch 1).gate fm.egCnt m2, (hch 2).gate fm.egCnt c1, (hch 3).gate fm.egCnt c2⟩

theorem Fm.writeKc_envelopeSound (h : fm.EnvelopeSound) (P : Params) (c : BitVec 3) (kc : BitVec 7) :
    (fm.writeKc P c kc).EnvelopeSound := by
  refine h.onChan fun ch hch s => ?_
  simp only [Channel.refreshEnvelope, Channel.refreshFreq, Quad.get_map]
  exact Operator.EnvelopeSound.refreshEnvelope (o := Operator.refreshFreq P { ch with kc := kc } _) (hch s) P kc

theorem Fm.writeKf_envelopeSound (h : fm.EnvelopeSound) (P : Params) (c : BitVec 3) (kf : BitVec 6) :
    (fm.writeKf P c kf).EnvelopeSound := by
  refine h.onChan fun ch hch s => ?_
  simp only [Channel.refreshFreq, Quad.get_map]
  exact hch s

/-- Every register write keeps the envelopes: key-on and key-off move them, and R156 recomputes the thresholds. -/
theorem Fm.write_envelopeSound (h : fm.EnvelopeSound) (r : FmReg) : (fm.write params r).EnvelopeSound := by
  cases r with
  | test | noise | clka1 | clka2 | clkb | timer | lfrq | ctW | unassigned => exact h
  | depth selPmd d => cases selPmd <;> exact h
  | kon c m1 c1 m2 c2 => exact Fm.writeKon_envelopeSound h c m1 c1 m2 c2
  | rlFbCon | pmsAms => exact h.onChan fun _ hch => hch
  | kc c kc => exact Fm.writeKc_envelopeSound h params c kc
  | kf c kf => exact Fm.writeKf_envelopeSound h params c kf
  | dt1Mul | tl => exact h.onOp fun _ _ ho => ho
  | ksAr | amsD1r | dt2D2r => exact h.onOp fun ch _ ho => Operator.EnvelopeSound.refreshEnvelope ho params ch.kc
  | d1lRr s c d1l rr =>
    exact h.onOp fun ch o ho => Operator.EnvelopeSound.refreshEnvelope (o := { o with d1l := d1l, rr := rr }) ho _ ch.kc

theorem Fm.egDivide_envelopeSound (h : fm.EnvelopeSound) : (fm.egDivide params).EnvelopeSound := by
  unfold Fm.egDivide
  split
  · exact Fm.EnvelopeSound.onOps (fm := { fm with egDiv := 0, egCnt := fm.egCnt + 1 }) h fun _ _ ho => ho.egStep _
  · exact h

/-- The channels' outputs and the phases leave the envelopes alone. -/
theorem Fm.sound_envelopeSound (h : fm.EnvelopeSound) (P : Params) : (fm.sound P).EnvelopeSound := by
  have hchans : Fm.EnvelopeSound { fm with
      chans := (fm.channelOutputs P).map Prod.fst
      outL := mix 0 (fm.channelOutputs P)
      outR := mix 1 (fm.channelOutputs P) } := by
    intro c s
    obtain ⟨noise, hc⟩ := fm.channelOutputs_get P c
    rw [Fm.op, Fm.chan, Octet.get_map, hc]
    exact h c s
  exact hchans.onOps fun _ _ ho => ho

theorem Fm.csmStep_envelopeSound (h : fm.EnvelopeSound) : (fm.csmStep params).EnvelopeSound := by
  unfold Fm.csmStep
  split
  · exact Fm.EnvelopeSound.onOps (fm := { fm with csmReq := 1 }) h fun _ _ ho => ho.keyOn _ (by decide)
  · split
    · exact Fm.EnvelopeSound.onOps (fm := { fm with csmReq := 0 }) h fun _ _ ho => ho.keyOff 2
    · exact h

/-- A sample keeps the envelopes; LFO, noise and timers reach no operator. -/
theorem Fm.advance_envelopeSound (h : fm.EnvelopeSound) : (fm.advance params).EnvelopeSound := by
  have hgen : (fm.generators params).EnvelopeSound :=
    Fm.egDivide_envelopeSound (fm := (fm.lfoAdvance params).noiseAdvance params) h
  have hcsm := Fm.csmStep_envelopeSound (Fm.sound_envelopeSound hgen params)
  intro c s
  rw [Fm.advance, Fm.op, Fm.chan, Fm.timers_chans]
  exact hcsm c s

theorem Fm.reset_envelopeSound : Fm.reset.EnvelopeSound := by
  intro c s
  rw [Fm.op_reset]
  unfold Operator.EnvelopeSound
  decide

/-- Settles O8: register writes and samples keep the envelopes, and RESET sets them; an EG tick has no step for OFF. -/
theorem envelopeInvariantKept : Obligations.EnvelopeInvariantKept := by
  refine ⟨fun s t => step_keeps_fm (Q := Fm.EnvelopeSound) (fun _ _ h => h) (fun _ r h => Fm.write_envelopeSound h r)
    (fun _ h => Fm.advance_envelopeSound h) Fm.reset_envelopeSound, fun cnt o hoff => ?_⟩
  have hres := o.egStep_result cnt
  rwa [EnvelopeStepResult, hoff] at hres

end Sys2Proof.Machine

/-! The chip-wide ranges of the FM engine at the default configuration fields (spec/10_state.md R20, R24). -/

namespace Sys2Proof.Machine

/-- Settles O10: `step` is the step of the default configuration fields, and the step of any fields keeps the ranges. -/
theorem rangesKept : Obligations.RangesKept :=
  fun s _ hs h => stepWith_keeps_rangesSound hs (step_eq_stepWith s ▸ h)

end Sys2Proof.Machine

/-! What each agent's operation reaches (spec/10_state.md R50, spec/20_memory.md R72, spec/45_midi_classifier.md
R361). -/

namespace Sys2Proof.Machine

/-! ### The parallel interface, from either side -/

theorem Piu.SameProgrammed.refl (p : Piu) : p.SameProgrammed p :=
  ⟨rfl, rfl, rfl, rfl, rfl, rfl, rfl, rfl, rfl, rfl, rfl⟩

/-- The handshake leaves what programs set in the units (R290). -/
theorem piuSettle_sameProgrammed (h f : Piu) :
    h.SameProgrammed (piuSettle h f).1 ∧ f.SameProgrammed (piuSettle h f).2 := by
  rw [piuSettle_eq]
  exact ⟨.refl h, .refl f⟩

@[simp] theorem State.netUpdate_tcr (s : State) : s.netUpdate.net.tcr = s.net.tcr := by
  rw [State.netUpdate_eq]
  rfl

@[simp] theorem State.piuUpdate_tcr (s : State) : s.piuUpdate.net.tcr = s.net.tcr := by
  simp [State.piuUpdate_eq]

/-- From `s` to `t` an operation on unit `q` reached no engine, timer, classifier or TCR, and nothing that the programs
of the other unit set. -/
structure PiuReach (q : PiuId) (s t : State) : Prop where
  fm : t.fm = s.fm
  pit : t.pit = s.pit
  mpc : ∀ st, t.mpc st = s.mpc st
  tcr : t.net.tcr = s.net.tcr
  other : (s.piu q.other).SameProgrammed (t.piu q.other)

variable {q : PiuId} {s t : State}

theorem PiuReach.refl (q : PiuId) (s : State) : PiuReach q s s :=
  ⟨rfl, rfl, fun _ => rfl, rfl, .refl _⟩

theorem PiuReach.output (h : PiuReach q s t) (e : Event) : PiuReach q s (t.output e) :=
  ⟨h.fm, h.pit, h.mpc, h.tcr, h.other⟩

theorem PiuReach.draw (q : PiuId) (s : State) (e : Event) : PiuReach q s (s.takeDraw.output e) :=
  PiuReach.output (s := s) (t := s.takeDraw) ⟨rfl, rfl, fun _ => rfl, rfl, .refl _⟩ e

theorem PiuReach.refuse (q : PiuId) (s : State) (r : RefuseReason) : PiuReach q s (s.refuse r) :=
  ⟨rfl, rfl, fun _ => rfl, rfl, .refl _⟩

/-- A unit replaced, then `PIU_UPDATE()`: the form of every write to the parallel interface. -/
theorem PiuReach.setPiu_piuUpdate (q : PiuId) (s : State) (p : Piu) : PiuReach q s (s.setPiu q p).piuUpdate := by
  refine ⟨by simp, by simp, fun st => by cases st <;> simp, by simp, ?_⟩
  cases q
  · simpa [PiuId.other] using (piuSettle_sameProgrammed p s.piuF).2
  · simpa [PiuId.other] using (piuSettle_sameProgrammed s.piuH p).1

theorem PiuReach.piuWrite (q : PiuId) (s : State) (x : Port) (v : Byte) : PiuReach q s (s.piuWrite q x v) := by
  unfold State.piuWrite
  split
  · exact .refl q s
  · exact .setPiu_piuUpdate q s _

theorem PiuReach.piuReadPlain (q : PiuId) (s : State) (x : Port) : PiuReach q s (s.piuReadPlain q x) := by
  unfold State.piuReadPlain
  split
  · exact (PiuReach.refl q s).output _
  · split
    · exact (PiuReach.refl q s).output _
    · exact .draw q s _

theorem PiuReach.piuRead (q : PiuId) (s : State) (x : Port) : PiuReach q s (s.piuRead q x) := by
  unfold State.piuRead
  split
  · exact (PiuReach.setPiu_piuUpdate q s _).output _
  · exact .piuReadPlain q s x

theorem PiuReach.reaches_host (h : PiuReach .h s t) : Reaches .host s t :=
  ⟨h.fm, h.mpc .midiIn, h.mpc .host, h.other⟩

theorem PiuReach.reaches_firmware (h : PiuReach .f s t) : Reaches .firmware s t :=
  ⟨h.pit, h.tcr, h.other, fun st => by rw [h.mpc st]⟩

/-! ### The host's other units -/

theorem reaches_host_setPit (s : State) (p : Pit) : Reaches .host s (s.setPit p) :=
  ⟨rfl, rfl, rfl, .refl _⟩

theorem reaches_host_pitRead (s : State) (n : CounterId) : Reaches .host s (s.pitRead n) :=
  ⟨rfl, rfl, rfl, .refl _⟩

theorem reaches_host_writeTcr (s : State) (v : Byte) : Reaches .host s (s.writeTcr v) := by
  refine ⟨by simp [State.writeTcr], by simp [State.writeTcr], by simp [State.writeTcr], ?_⟩
  rw [State.writeTcr, State.netUpdate_piuF]
  exact .refl _

/-! ### The firmware's other units -/

theorem reaches_firmware_setFm (s : State) (fm : Fm) : Reaches .firmware s (s.setFm fm) :=
  ⟨rfl, rfl, .refl _, fun st => by cases st <;> rfl⟩

theorem reaches_firmware_setFlow (s : State) (st : Stream) (m : BitVec 3) : Reaches .firmware s (s.setFlow st m) := by
  refine ⟨by simp [State.setFlow], by simp [State.setFlow], ?_, fun st' => ?_⟩
  · rw [State.setFlow, State.setMpc_piuH]
    exact .refl _
  · cases st <;> cases st' <;> rfl

/-! ### The sample, the tick, the MIDI byte -/

theorem reaches_audioPull_advanceSamples (P : Params) (n : Nat) (s : State) :
    Reaches .audioPull s (State.advanceSamples P n s) := by
  induction n generalizing s with
  | zero => rfl
  | succ n ih => exact ih (s.advanceSample P)

theorem reaches_timerClock_iff :
    Reaches .timerClock s t ↔
      ∃ p n es, t = { s with pit := p, net := n, trace := es } ∧ n.tcr = s.net.tcr := by
  constructor
  · intro ⟨ht, htcr⟩
    exact ⟨_, _, _, ht, htcr⟩
  · rintro ⟨p, n, es, rfl, htcr⟩
    exact ⟨rfl, htcr⟩

/-- Each level of the output line moves the timer, the network and the outputs (R249, R320). -/
theorem reaches_timerClock_driveOut0 (h : Reaches .timerClock s t) (level : Bool) :
    Reaches .timerClock s (t.driveOut0 level) := by
  obtain ⟨p, n, es, rfl, htcr⟩ := reaches_timerClock_iff.mp h
  rw [reaches_timerClock_iff, State.driveOut0, State.netUpdate_eq]
  exact ⟨_, _, _, rfl, htcr⟩

theorem reaches_timerClock_foldl_driveOut0 (h : Reaches .timerClock s t) (levels : List Bool) :
    Reaches .timerClock s (levels.foldl State.driveOut0 t) := by
  induction levels generalizing t with
  | nil => exact h
  | cons l ls ih => exact ih (reaches_timerClock_driveOut0 h l)

theorem reaches_timerClock_pitTickWith (m : TickMode) (s : State) : Reaches .timerClock s (s.pitTickWith m) :=
  reaches_timerClock_foldl_driveOut0 ⟨rfl, rfl⟩ _

/-- A MIDI byte leaves the flow row (R345, R350). -/
theorem Mpc.feed_flow (T : MpcTables) (st : Stream) (m : Mpc) (b : Byte) : (m.feed T st b).1.flow = m.flow := by
  unfold Mpc.feed
  dsimp only
  split <;> rfl

theorem reaches_midiSource_midiFeedWith (T : MpcTables) (s : State) (st : Stream) (b : Byte) :
    Reaches (.midiSource st) s (s.midiFeedWith T st b) := by
  rw [State.midiFeedWith_eq]
  cases st <;> exact ⟨rfl, Mpc.feed_flow ..⟩

/-! ### Every operation -/

/-- Settles O15, by the rows of each agent and what their shared operation reaches. -/
theorem agentsReachOnlyTheirOwn : Obligations.AgentsReachOnlyTheirOwn := by
  intro i s t h
  cases i <;> injection h with h <;> subst h
  case outPiuHPa | outPiuHPb => exact (PiuReach.piuWrite .h s _ _).reaches_host
  case inPiuHPa | inPiuHPb => exact (PiuReach.piuRead .h s _).reaches_host
  case outPiuHPc | outPiuHMode | outPiuHBsr => exact (PiuReach.setPiu_piuUpdate .h s _).reaches_host
  case outPiuHModeBidir => exact (PiuReach.refuse .h s _).reaches_host
  case inPiuHPc | inPiuHMode | inPitCmd => exact (PiuReach.draw .h s _).reaches_host
  case inNetTcr | inNetTsr => exact ((PiuReach.refl .h s).output _).reaches_host
  case outPitIgnored | outNetTsr => exact (PiuReach.refl .h s).reaches_host
  case outPitCnt0 | outPitCnt1 | outPitCnt2 | outPitLatch | outPitControl => exact reaches_host_setPit s _
  case inPitCnt0 | inPitCnt1 | inPitCnt2 => exact reaches_host_pitRead s _
  case outNetTcr => exact reaches_host_writeTcr s _
  case fwoutPa | fwoutPb => exact (PiuReach.piuWrite .f s _ _).reaches_firmware
  case fwinPa | fwinPb => exact (PiuReach.piuRead .f s _).reaches_firmware
  case fwoutPc | fwoutMode | fwoutBsr => exact (PiuReach.setPiu_piuUpdate .f s _).reaches_firmware
  case fwoutModeBidir => exact (PiuReach.refuse .f s _).reaches_firmware
  case fwinPc | fwinMode | fwinFmSel => exact (PiuReach.draw .f s _).reaches_firmware
  case fwinFmData => exact ((PiuReach.refl .f s).output _).reaches_firmware
  case flow => exact reaches_firmware_setFlow s _ _
  case sample => exact reaches_audioPull_advanceSamples params 1 s
  case samples => exact reaches_audioPull_advanceSamples params _ s
  case tick => exact reaches_timerClock_pitTickWith _ s
  case midiData | midiNoteOff | midiNoteOn | midiPolyPressure | midiControlChange | midiProgramChange |
      midiChannelPressure | midiPitchBend | midiSysEx | midiTimeCode | midiSongPosition | midiSongSelect |
      midiUndefinedF4 | midiUndefinedF5 | midiTuneRequest | midiEndOfExclusive | midiRealTime | midiFeed =>
    exact reaches_midiSource_midiFeedWith params.tables s _ _
  case reset => exact s.resetOp_params
  -- The rows left are the firmware's writes to the FM engine.
  all_goals exact reaches_firmware_setFm s _

end Sys2Proof.Machine

/-! The FM register map as equations (spec/30_encoding.md R95 to R97): an address taken apart, and the write that each
assigned address decodes to. -/

namespace Sys2Proof

/-! ### Addresses -/

theorem operatorAddress_fields (g : BitVec 3) (s : BitVec 2) (c : BitVec 3) :
    (operatorAddress g s c).extractLsb' 5 3 = g ∧ (operatorAddress g s c).extractLsb' 3 2 = s
      ∧ (operatorAddress g s c).extractLsb' 0 3 = c := by
  revert g s c
  decide

theorem channelAddress_fields (g : BitVec 5) (c : BitVec 3) :
    (channelAddress g c).extractLsb' 5 3 = g.extractLsb' 2 3
      ∧ (channelAddress g c).extractLsb' 3 2 = g.extractLsb' 0 2 ∧ (channelAddress g c).extractLsb' 0 3 = c := by
  revert g c
  decide

/-! ### The system registers -/

section
variable (v : Byte)

theorem decodeFm_test : decodeFm 0x01 v = .test v := rfl
theorem decodeFm_kon :
    decodeFm 0x08 v = .kon (v.extractLsb' 0 3) (v.getLsbD 3) (v.getLsbD 4) (v.getLsbD 5) (v.getLsbD 6) := rfl
theorem decodeFm_noise : decodeFm 0x0F v = .noise (v.getLsbD 7) (v.extractLsb' 0 5) := rfl
theorem decodeFm_clka1 : decodeFm 0x10 v = .clka1 v := rfl
theorem decodeFm_clka2 : decodeFm 0x11 v = .clka2 (v.extractLsb' 0 2) := rfl
theorem decodeFm_clkb : decodeFm 0x12 v = .clkb v := rfl
theorem decodeFm_timer :
    decodeFm 0x14 v = .timer (v.getLsbD 7) (v.getLsbD 5) (v.getLsbD 4) (v.getLsbD 3) (v.getLsbD 2) (v.getLsbD 1)
      (v.getLsbD 0) := rfl
theorem decodeFm_lfrq : decodeFm 0x18 v = .lfrq v := rfl
theorem decodeFm_depth : decodeFm 0x19 v = .depth (v.getLsbD 7) (v.extractLsb' 0 7) := rfl
theorem decodeFm_ctW : decodeFm 0x1B v = .ctW (v.extractLsb' 6 2) (v.extractLsb' 0 2) := rfl

end

/-! ### The channel registers -/

section
variable (c : BitVec 3) (v : Byte)

theorem decodeFm_rlFbCon :
    decodeFm (channelAddress 4 c) v
      = .rlFbCon c (v.getLsbD 7) (v.getLsbD 6) (v.extractLsb' 3 3) (v.extractLsb' 0 3) := by
  simp [decodeFm, decodeFmChannel, channelAddress_fields]

theorem decodeFm_kc : decodeFm (channelAddress 5 c) v = .kc c (v.extractLsb' 0 7) := by
  simp [decodeFm, decodeFmChannel, channelAddress_fields]

theorem decodeFm_kf : decodeFm (channelAddress 6 c) v = .kf c (v.extractLsb' 2 6) := by
  simp [decodeFm, decodeFmChannel, channelAddress_fields]

theorem decodeFm_pmsAms :
    decodeFm (channelAddress 7 c) v = .pmsAms c (v.extractLsb' 4 3) (v.extractLsb' 0 2) := by
  simp [decodeFm, decodeFmChannel, channelAddress_fields]

end

/-! ### The operator registers -/

section
variable (s : BitVec 2) (c : BitVec 3) (v : Byte)

theorem decodeFm_dt1Mul :
    decodeFm (operatorAddress 2 s c) v = .dt1Mul s c (v.extractLsb' 4 3) (v.extractLsb' 0 4) := by
  simp [decodeFm, operatorAddress_fields]

theorem decodeFm_tl : decodeFm (operatorAddress 3 s c) v = .tl s c (v.extractLsb' 0 7) := by
  simp [decodeFm, operatorAddress_fields]

theorem decodeFm_ksAr :
    decodeFm (operatorAddress 4 s c) v = .ksAr s c (v.extractLsb' 6 2) (v.extractLsb' 0 5) := by
  simp [decodeFm, operatorAddress_fields]

theorem decodeFm_amsD1r :
    decodeFm (operatorAddress 5 s c) v = .amsD1r s c (v.getLsbD 7) (v.extractLsb' 0 5) := by
  simp [decodeFm, operatorAddress_fields]

theorem decodeFm_dt2D2r :
    decodeFm (operatorAddress 6 s c) v = .dt2D2r s c (v.extractLsb' 6 2) (v.extractLsb' 0 5) := by
  simp [decodeFm, operatorAddress_fields]

theorem decodeFm_d1lRr :
    decodeFm (operatorAddress 7 s c) v = .d1lRr s c (v.extractLsb' 4 4) (v.extractLsb' 0 4) := by
  simp [decodeFm, operatorAddress_fields]

end

end Sys2Proof

/-! Decoding what the encoder writes, path by path (spec/20_memory.md R70, spec/30_encoding.md R90 to R97, R105, R115,
R120). -/

namespace Sys2Proof

/-! ### Records -/

/-- A word of the path's own width decodes. -/
theorem decode_word_of_width {p : Path} {n : Nat} (h : p.width = some n) (x : BitVec n) :
    decode ⟨p, x.toNat⟩ = .ok (decodeWord p x.toNat) :=
  if_pos (word_fits h x)

theorem decode_hostWriteAt (off : BitVec 4) (v : Byte) :
    decode (hostWriteAt off v) = .ok (decodeHostWrite (off ++ v)) := by
  rw [hostWriteAt, decode_word_of_width rfl, decodeWord, BitVec.ofNat_toNat, BitVec.setWidth_eq]

theorem decode_hostReadAt (off : BitVec 4) : decode (hostReadAt off) = .ok (decodeHostRead off) := by
  rw [hostReadAt, decode_word_of_width rfl, decodeWord, BitVec.ofNat_toNat, BitVec.setWidth_eq]

theorem decode_fwWrite (r : FwReg) (v : Byte) : decode ⟨.fwWrite r, v.toNat⟩ = .ok (decodeFwWrite r v) := by
  rw [decode_word_of_width rfl, decodeWord, BitVec.ofNat_toNat, BitVec.setWidth_eq]

theorem decode_fmWriteAt (a v : Byte) : decode (fmWriteAt a v) = .ok (decodeFmPairRow a v) := by
  rw [fmWriteAt, decode_word_of_width rfl, decodeWord, BitVec.ofNat_toNat, BitVec.setWidth_eq,
    BitVec.extractLsb'_append_eq_left, BitVec.extractLsb'_append_eq_right]

theorem decode_midiByte (s : Stream) (b : Byte) : decode (midiByte s b) = .ok (decodeMidi s b) := by
  rw [midiByte, decode_word_of_width rfl, decodeWord, BitVec.ofNat_toNat, BitVec.setWidth_eq]

theorem decode_fmPair (a v : Byte) : decode ⟨.fmPair, (a ++ v).toNat⟩ = .ok (.fmwPair a v) := by
  rw [decode_word_of_width rfl, decodeWord, BitVec.ofNat_toNat, BitVec.setWidth_eq, BitVec.extractLsb'_append_eq_left,
    BitVec.extractLsb'_append_eq_right]

theorem decode_midiOp (s : Stream) (b : Byte) : decode ⟨.midiOp s, b.toNat⟩ = .ok (.midiFeed s b) := by
  rw [decode_word_of_width rfl, decodeWord, BitVec.ofNat_toNat, BitVec.setWidth_eq]

theorem decode_flow (s : Stream) (m : BitVec 3) : decode ⟨.flow s, m.toNat⟩ = .ok (.flow s m) := by
  cases s <;> revert m <;> decide

/-! ### Mode words and timer commands -/

theorem decodeMode_encodeBitSet (n : BitVec 3) (b : Bool) : decodeMode (encodeBitSet n b) = .bitSet n b := by
  revert n b
  decide

theorem decodeMode_encodeBidirectional (low : BitVec 6) :
    decodeMode (encodeBidirectional low) = .bidirectional low := by
  revert low
  decide

/-- A mode word of the plain row has bit 6 clear, which tells it from a bidirectional one (R115, R277). -/
theorem decodeMode_encodeModeWord {m : ModeWord} (h : m.wellFormed = true) :
    decodeMode (encodeModeWord m) = .word m := by
  obtain ⟨ma, dirA, dirCh, mb, dirB, dirCl⟩ := m
  rw [ModeWord.wellFormed_iff] at h
  rcases h with rfl | rfl <;> revert dirA dirCh mb dirB dirCl <;> decide

theorem decodePitCommand_ignored (low : BitVec 6) : decodePitCommand (3#2 ++ low) = .outPitIgnored low := by
  revert low
  decide

theorem decodePitCommand_latch {sc : BitVec 2} (h : latchWellFormed sc = true) :
    decodePitCommand (sc ++ 0#6) = .outPitLatch sc := by
  revert sc
  decide

theorem decodePitCommand_control {sc rw : BitVec 2} (h : controlWellFormed sc rw = true) (mode : BitVec 3)
    (bcd : Bool) :
    decodePitCommand (sc ++ rw ++ mode ++ BitVec.ofBool bcd) = .outPitControl sc rw mode bcd := by
  revert sc rw mode bcd
  decide

/-! ### Host offsets -/

theorem decodeHostWrite_modeWord {v : Byte} {m : ModeWord} (h : decodeMode v = .word m) :
    decodeHostWrite (3#4 ++ v) = .outPiuHMode m := by
  simp only [decodeHostWrite, BitVec.extractLsb'_append_eq_left, BitVec.extractLsb'_append_eq_right,
    BitVec.reduceToNat, h]

theorem decodeHostWrite_bidirectional {v : Byte} {low : BitVec 6} (h : decodeMode v = .bidirectional low) :
    decodeHostWrite (3#4 ++ v) = .outPiuHModeBidir low := by
  simp only [decodeHostWrite, BitVec.extractLsb'_append_eq_left, BitVec.extractLsb'_append_eq_right,
    BitVec.reduceToNat, h]

theorem decodeHostWrite_bitSet {v : Byte} {n : BitVec 3} {b : Bool} (h : decodeMode v = .bitSet n b) :
    decodeHostWrite (3#4 ++ v) = .outPiuHBsr n b := by
  simp only [decodeHostWrite, BitVec.extractLsb'_append_eq_left, BitVec.extractLsb'_append_eq_right,
    BitVec.reduceToNat, h]

theorem decodeHostWrite_pitCommand (v : Byte) : decodeHostWrite (7#4 ++ v) = decodePitCommand v := by
  simp only [decodeHostWrite, BitVec.extractLsb'_append_eq_left, BitVec.extractLsb'_append_eq_right,
    BitVec.reduceToNat]

/-- At an offset of the network, bit 2 of the offset tells TSR from TCR and the low two bits are the mirror (R90). -/
theorem decodeHostWrite_net (tsr : Bool) (mirror : BitVec 2) (v : Byte) :
    decodeHostWrite ((1#1 ++ BitVec.ofBool tsr ++ mirror) ++ v)
      = if tsr then .outNetTsr mirror v else .outNetTcr mirror v := by
  simp only [decodeHostWrite, BitVec.getLsbD_append, BitVec.extractLsb'_append_eq_of_le, Nat.reduceLeDiff,
    Nat.reduceSub, BitVec.extractLsb'_append_eq_right]
  cases tsr <;> revert mirror <;> exact Machine.forall_slot ⟨rfl, rfl, rfl, rfl⟩

theorem decodeHostRead_netTcr (mirror : BitVec 2) : decodeHostRead (2#2 ++ mirror) = .inNetTcr mirror := by
  revert mirror
  decide

theorem decodeHostRead_netTsr (mirror : BitVec 2) : decodeHostRead (3#2 ++ mirror) = .inNetTsr mirror := by
  revert mirror
  decide

theorem decodeMidi_data (s : Stream) (d : BitVec 7) : decodeMidi s (0#1 ++ d) = .midiData s d := by
  cases s <;> revert d <;> decide

theorem decodeMidi_realTime (s : Stream) (rt : BitVec 3) : decodeMidi s (0x1F#5 ++ rt) = .midiRealTime s rt := by
  cases s <;> revert rt <;> decide

/-! ### Every operation -/

/-- Settles O1, row by row: the path gives the word back, its map the row, and the fields their values. Only the mode
words and the timer commands need that the operation is well formed. -/
theorem encodedInstructionsDecodeBack : Obligations.EncodedInstructionsDecodeBack := by
  intro i h
  cases i
  case outPiuHPa | outPiuHPb | outPiuHPc | outPitCnt0 | outPitCnt1 | outPitCnt2 =>
    refine (decode_hostWriteAt _ _).trans (congrArg _ ?_)
    simp only [decodeHostWrite, BitVec.extractLsb'_append_eq_left, BitVec.extractLsb'_append_eq_right,
      BitVec.reduceToNat]
  case outPiuHMode m =>
    exact (decode_hostWriteAt 3 _).trans (congrArg _ (decodeHostWrite_modeWord (decodeMode_encodeModeWord h)))
  case outPiuHModeBidir low =>
    exact (decode_hostWriteAt 3 _).trans
      (congrArg _ (decodeHostWrite_bidirectional (decodeMode_encodeBidirectional low)))
  case outPiuHBsr n b =>
    exact (decode_hostWriteAt 3 _).trans (congrArg _ (decodeHostWrite_bitSet (decodeMode_encodeBitSet n b)))
  case outPitLatch sc =>
    exact (decode_hostWriteAt 7 _).trans
      (congrArg _ ((decodeHostWrite_pitCommand _).trans (decodePitCommand_latch h)))
  case outPitControl sc rw mode bcd =>
    exact (decode_hostWriteAt 7 _).trans
      (congrArg _ ((decodeHostWrite_pitCommand _).trans (decodePitCommand_control h mode bcd)))
  case outPitIgnored low =>
    exact (decode_hostWriteAt 7 _).trans
      (congrArg _ ((decodeHostWrite_pitCommand _).trans (decodePitCommand_ignored low)))
  case outNetTcr mirror v =>
    exact (decode_hostWriteAt _ v).trans (congrArg _ (decodeHostWrite_net false mirror v))
  case outNetTsr mirror v =>
    exact (decode_hostWriteAt _ v).trans (congrArg _ (decodeHostWrite_net true mirror v))
  case inPiuHPa | inPiuHPb | inPiuHPc | inPiuHMode | inPitCnt0 | inPitCnt1 | inPitCnt2 | inPitCmd =>
    exact decode_hostReadAt _
  case inNetTcr => exact (decode_hostReadAt _).trans (congrArg _ (decodeHostRead_netTcr _))
  case inNetTsr => exact (decode_hostReadAt _).trans (congrArg _ (decodeHostRead_netTsr _))
  case fwoutPa | fwoutPb | fwoutPc | fwoutFmSel | fwoutFmData => exact decode_fwWrite _ _
  case fwoutMode m =>
    exact (decode_fwWrite .mode _).trans (by rw [decodeFwWrite, decodeMode_encodeModeWord h])
  case fwoutModeBidir low =>
    exact (decode_fwWrite .mode _).trans (by rw [decodeFwWrite, decodeMode_encodeBidirectional])
  case fwoutBsr n b =>
    exact (decode_fwWrite .mode _).trans (by rw [decodeFwWrite, decodeMode_encodeBitSet])
  case fwinPa | fwinPb | fwinPc | fwinMode | fwinFmSel | fwinFmData => rfl
  case fmwTest | fmwKon | fmwNoise | fmwClka1 | fmwClka2 | fmwClkb | fmwTimer | fmwLfrq | fmwDepth | fmwCtW |
      fmwRlFbCon | fmwKc | fmwKf | fmwPmsAms | fmwDt1Mul | fmwTl | fmwKsAr | fmwAmsD1r | fmwDt2D2r | fmwD1lRr =>
    refine (decode_fmWriteAt _ _).trans (congrArg _ ?_)
    simp only [decodeFmPairRow, decodeFm_test, decodeFm_kon, decodeFm_noise, decodeFm_clka1, decodeFm_clka2,
      decodeFm_clkb, decodeFm_timer, decodeFm_lfrq, decodeFm_depth, decodeFm_ctW, decodeFm_rlFbCon, decodeFm_kc,
      decodeFm_kf, decodeFm_pmsAms, decodeFm_dt1Mul, decodeFm_tl, decodeFm_ksAr, decodeFm_amsD1r, decodeFm_dt2D2r,
      decodeFm_d1lRr, BitVec.extractLsb'_append_eq_left, BitVec.extractLsb'_append_eq_right,
      BitVec.extractLsb'_append_eq_of_le, BitVec.getLsbD_append, BitVec.getLsbD_ofBool, Nat.reduceLeDiff,
      Nat.reduceLT, Nat.reduceSub, Nat.lt_irrefl, if_true, if_false, decide_true, Bool.true_and]
  case sample | samples | tick | reset => rfl
  case fmwPair => exact decode_fmPair _ _
  case flow => exact decode_flow _ _
  case midiFeed => exact decode_midiOp _ _
  case midiData => exact (decode_midiByte _ _).trans (congrArg _ (decodeMidi_data _ _))
  case midiRealTime => exact (decode_midiByte _ _).trans (congrArg _ (decodeMidi_realTime _ _))
  case midiNoteOff | midiNoteOn | midiPolyPressure | midiControlChange | midiProgramChange | midiChannelPressure |
      midiPitchBend =>
    refine (decode_midiByte _ _).trans (congrArg _ ?_)
    simp only [decodeMidi, BitVec.extractLsb'_append_eq_left, BitVec.extractLsb'_append_eq_right, BitVec.reduceToNat]
  case midiSysEx | midiTimeCode | midiSongPosition | midiSongSelect | midiUndefinedF4 | midiUndefinedF5 |
      midiTuneRequest | midiEndOfExclusive => exact decode_midiByte _ _
  -- The rows left are those of the unassigned FM addresses.
  all_goals exact decode_fmWriteAt _ _

end Sys2Proof

/-! What the FM pair does at each address, and the rows that write no channel (spec/20_memory.md R79,
spec/30_encoding.md R97, R98, spec/40_fm_registers.md R131 to R142, R153). -/

namespace Sys2Proof

/-- Every address is a group, a slot and a channel (R96). -/
theorem exists_operatorAddress (a : Byte) : ∃ g s c, a = operatorAddress g s c :=
  ⟨a.extractLsb' 5 3, a.extractLsb' 3 2, a.extractLsb' 0 3, by revert a; decide⟩

/-- In group 1 a channel register's own group stands in the place of the slot (R95). -/
theorem operatorAddress_one (c : BitVec 3) :
    operatorAddress 1 0 c = channelAddress 4 c ∧ operatorAddress 1 1 c = channelAddress 5 c
      ∧ operatorAddress 1 2 c = channelAddress 6 c ∧ operatorAddress 1 3 c = channelAddress 7 c := by
  revert c
  decide

end Sys2Proof

namespace Sys2Proof.Machine

/-! ### The row of an address -/

/-- A row of a system address, assigned or not, is the pair at that address: the 32 addresses one by one (R97, R98). -/
theorem exec_decodeFmPairRow_system (s : BitVec 2) (c : BitVec 3) (v : Byte) (st : State) :
    exec (decodeFmPairRow (operatorAddress 0 s c) v) st
      = .next (st.fmPair params (operatorAddress 0 s c) (decodeFm (operatorAddress 0 s c) v)) := by
  revert s
  refine forall_slot ⟨?_, ?_, ?_, ?_⟩ <;> revert c <;>
    exact forall_channel ⟨rfl, rfl, rfl, rfl, rfl, rfl, rfl, rfl⟩

theorem exec_decodeFmPairRow_channel (s : BitVec 2) (c : BitVec 3) (v : Byte) (st : State) :
    exec (decodeFmPairRow (operatorAddress 1 s c) v) st
      = .next (st.fmPair params (operatorAddress 1 s c) (decodeFm (operatorAddress 1 s c) v)) := by
  obtain ⟨h4, h5, h6, h7⟩ := operatorAddress_one c
  revert s
  refine forall_slot ⟨?_, ?_, ?_, ?_⟩
  · rw [h4, decodeFmPairRow, decodeFm_rlFbCon]; rfl
  · rw [h5, decodeFmPairRow, decodeFm_kc]; rfl
  · rw [h6, decodeFmPairRow, decodeFm_kf]; rfl
  · rw [h7, decodeFmPairRow, decodeFm_pmsAms]; rfl

/-- The row of an address is the pair at that address (R79, R122). -/
theorem exec_decodeFmPairRow (a v : Byte) (st : State) :
    exec (decodeFmPairRow a v) st = .next (st.fmPair params a (decodeFm a v)) := by
  obtain ⟨g, s, c, rfl⟩ := exists_operatorAddress a
  revert g
  refine forall_channel ⟨exec_decodeFmPairRow_system s c v st, exec_decodeFmPairRow_channel s c v st,
    ?_, ?_, ?_, ?_, ?_, ?_⟩
  · rw [decodeFmPairRow, decodeFm_dt1Mul]; rfl
  · rw [decodeFmPairRow, decodeFm_tl]; rfl
  · rw [decodeFmPairRow, decodeFm_ksAr]; rfl
  · rw [decodeFmPairRow, decodeFm_amsD1r]; rfl
  · rw [decodeFmPairRow, decodeFm_dt2D2r]; rfl
  · rw [decodeFmPairRow, decodeFm_d1lRr]; rfl

/-! ### The data write -/

/-- No register write moves the select latch (R131). -/
theorem Fm.write_sel (P : Params) (fm : Fm) (r : FmReg) : (fm.write P r).sel = fm.sel := by
  cases r with
  | depth selPmd d => cases selPmd <;> rfl
  | _ => rfl

theorem Fm.select_sel (fm : Fm) : fm.select fm.sel = fm :=
  rfl

/-- Settles O19: the row of an address is the pair at it, and selecting what is selected changes nothing. -/
theorem fmDataWritesSelectedRegister : Obligations.FmDataWritesSelectedRegister := by
  intro a v s
  refine ⟨⟨_, rfl, Fm.write_sel params s.fm _, ?_⟩, ⟨_, _, rfl, exec_decodeFmPairRow a v s, rfl, rfl⟩⟩
  rw [exec_decodeFmPairRow, State.fmPair, Fm.select_sel]

/-! ### Rows that write no channel -/

/-- Settles O21; of the two depths the row writes one. -/
theorem fmControlWrites : Obligations.FmControlWrites := by
  intro s v ne b nfrq lo ct w d
  refine ⟨rfl, rfl, rfl, rfl, rfl, rfl, ?_, rfl⟩
  cases b <;> rfl

/-- Settles O24: each of the 22 rows is the select of its address. -/
theorem unassignedWrites : Obligations.UnassignedWrites := by
  intro v s
  simp only [List.forall_mem_cons]
  exact ⟨rfl, rfl, rfl, rfl, rfl, rfl, rfl, rfl, rfl, rfl, rfl, rfl, rfl, rfl, rfl, rfl, rfl, rfl, rfl, rfl, rfl, rfl,
    List.forall_mem_nil _⟩

end Sys2Proof.Machine

/-! The rows that write a channel or an operator (spec/40_fm_registers.md R143 to R152). -/

namespace Sys2Proof.Machine

/-- What a row that writes to channel `c` through the pair at address `a` answers (R79, R95). -/
theorem exec_channelRow {i : Instr} {s : State} {a a' : Byte} {c : BitVec 3} {f : Channel → Channel}
    (hrow : exec i s = .next (s.setFm ((s.fm.select a).onChan c f))) (ha : a = a') :
    ∃ t, exec i s = .next t ∧ t = { s with fm := t.fm } ∧ ChannelFrame s.fm t.fm a' c
      ∧ t.fm.chan c = f (s.fm.chan c) :=
  ⟨_, hrow, rfl, ha ▸ channelFrame_onChan s.fm a c f, Fm.chan_onChan _ c f⟩

/-- What a row that writes to operator slot `sl` of channel `c` through the pair at address `a` answers (R79, R96). -/
theorem exec_operatorRow {i : Instr} {s : State} {a a' : Byte} {c : BitVec 3} {sl : BitVec 2}
    {f : Channel → Operator → Operator} (hrow : exec i s = .next (s.setFm ((s.fm.select a).onOp c sl f)))
    (ha : a = a') :
    ∃ t, exec i s = .next t ∧ t = { s with fm := t.fm } ∧ OperatorFrame s.fm t.fm a' c sl
      ∧ t.fm.op c sl = f (s.fm.chan c) (s.fm.op c sl) :=
  ⟨_, hrow, rfl, ha ▸ operatorFrame_onOp s.fm a c sl f, Fm.op_onOp _ c sl f⟩

/-- What a row answers that writes to an operator's registers and then recomputes its envelope fields (R156). -/
theorem exec_envelopeRow {i : Instr} {s : State} {a a' : Byte} {c : BitVec 3} {sl : BitVec 2}
    {w : Operator → Operator}
    (hrow : exec i s = .next (s.setFm ((s.fm.select a).onOp c sl fun ch o => (w o).refreshEnvelope params ch.kc)))
    (ha : a = a') :
    ∃ t, exec i s = .next t ∧ t = { s with fm := t.fm } ∧ OperatorFrame s.fm t.fm a' c sl
      ∧ (w (s.fm.op c sl)).SameRegisters (t.fm.op c sl) ∧ (t.fm.op c sl).freq = (w (s.fm.op c sl)).freq
      ∧ EnvelopeDerived params (s.fm.chan c).kc (t.fm.op c sl) := by
  obtain ⟨t, ht, hrest, hframe, hop⟩ := exec_operatorRow hrow ha
  exact ⟨t, ht, hrest, hframe, by rw [hop]; exact ⟨rfl, rfl, Operator.refreshEnvelope_derived params _ _⟩⟩

/-- Settles O25. In the KC and the KF row each operator is recomputed from the channel with its new field. -/
theorem channelWrites : Obligations.ChannelWrites := by
  intro c r l fb con pms ams kc kf s
  obtain ⟨h4, h5, h6, h7⟩ := channelAddress_eq c
  refine ⟨exec_channelRow (f := fun ch => { ch with rl := BitVec.ofBool r ++ BitVec.ofBool l, fb := fb, con := con })
      rfl h4, ?_, ?_, exec_channelRow (f := fun ch => { ch with pms := pms, ams := ams }) rfl h7⟩
  · obtain ⟨t, ht, hrest, hframe, hchan⟩ := exec_channelRow (i := .fmwKc c kc) (s := s) rfl h5
    refine ⟨t, ht, hrest, hframe, by rw [hchan]; rfl, fun hused => ?_, fun sl => ?_⟩
    · rw [hchan]
      exact keyIndex_used kc (s.fm.chan c).kf hused
    · simp only [Fm.op, hchan, Channel.refreshEnvelope, Channel.refreshFreq, Quad.get_map]
      exact ⟨rfl, rfl, Operator.refreshEnvelope_derived params kc _⟩
  · obtain ⟨t, ht, hrest, hframe, hchan⟩ := exec_channelRow (i := .fmwKf c kf) (s := s) rfl h6
    refine ⟨t, ht, hrest, hframe, by rw [hchan]; rfl, fun sl => ?_⟩
    simp only [Fm.op, hchan, Channel.refreshFreq, Quad.get_map]
    exact ⟨rfl, rfl, (phaseInc_fraction ..).trans (by rw [add_zero])⟩

/-- Settles O26: each row makes of the operator the fields it writes and those its rule recomputes from them. -/
theorem operatorPitchAndLevelWrites : Obligations.OperatorPitchAndLevelWrites := by
  intro sl c dt1 mul tl dt2 d2r s
  refine ⟨?_, ?_, ?_⟩
  · obtain ⟨t, ht, hrest, hframe, hop⟩ :=
      exec_operatorRow (i := .fmwDt1Mul sl c dt1 mul) (s := s) rfl (operatorAddress_eq 2 sl c)
    exact ⟨t, ht, hrest, hframe, by rw [hop]; exact ⟨rfl, rfl⟩⟩
  · obtain ⟨t, ht, hrest, hframe, hop⟩ :=
      exec_operatorRow (i := .fmwTl sl c tl) (s := s) rfl (operatorAddress_eq 3 sl c)
    exact ⟨t, ht, hrest, hframe, by rw [hop, tlAttOf_eq_shiftLeft]⟩
  · obtain ⟨t, ht, hrest, hframe, hop⟩ :=
      exec_operatorRow (i := .fmwDt2D2r sl c dt2 d2r) (s := s) rfl (operatorAddress_eq 6 sl c)
    exact ⟨t, ht, hrest, hframe, by rw [hop]; exact ⟨rfl, rfl, Operator.refreshEnvelope_derived params _ _⟩⟩

/-- Settles O27: the three rows differ in the registers they write alone. -/
theorem operatorEnvelopeWrites : Obligations.OperatorEnvelopeWrites := by
  intro sl c ks ar d1r ams d1l rr s
  exact ⟨exec_envelopeRow (w := fun o => { o with ks := ks, ar := ar }) rfl (operatorAddress_eq 4 sl c),
    exec_envelopeRow (w := fun o => { o with amsEn := ams, d1r := d1r }) rfl (operatorAddress_eq 5 sl c),
    exec_envelopeRow (w := fun o => { o with d1l := d1l, rr := rr }) rfl (operatorAddress_eq 7 sl c)⟩

end Sys2Proof.Machine

/-! A step on a record that decodes (spec/20_memory.md R76, R78). -/

namespace Sys2Proof.Machine

theorem step_of_decode {s : State} {a : Access} {rest : List Access} {i : Instr} (hp : s.pending = a :: rest)
    (hd : decode a = .ok i) : step s = runOperation i (s.setPending rest) := by
  simp only [step, hp, hd]

theorem runOperation_of_unmarked {s : State} (h : s.mark = none) (i : Instr) : runOperation i s = exec i s := by
  simp only [runOperation, h]

/-- Settles O5: the mark is the same without the record. -/
theorem stepRunsDecodedInstruction : Obligations.StepRunsDecodedInstruction := by
  intro s a rest i hp hd hm
  exact (step_of_decode hp hd).trans (runOperation_of_unmarked (s := s.setPending rest) hm i)

end Sys2Proof.Machine

/-! Port C of the parallel interface, bit by bit (spec/30_encoding.md R116, R117, spec/43_piu.md R278, R283, R284). -/

namespace Sys2Proof.Machine

/-! ### Bytes, bit by bit -/

theorem getLsbD_setBit (v : Byte) {n k : Nat} (hk : k < 8) (b : Bool) :
    (setBit v n b).getLsbD k = if k = n then b else v.getLsbD k := by
  have hbit : (1#8 <<< n).getLsbD k = decide (k = n) := by
    simp only [BitVec.getLsbD_shiftLeft, BitVec.getLsbD_one]
    grind
  unfold setBit
  cases b
  · simp only [Bool.false_eq_true, if_false, BitVec.getLsbD_and, BitVec.getLsbD_not, hbit, hk]
    grind
  · simp only [if_true, BitVec.getLsbD_or, hbit]
    grind

theorem getLsbD_byteOfBits (f : Nat → Bool) {k : Nat} (hk : k < 8) :
    (byteOfBits (f 7) (f 6) (f 5) (f 4) (f 3) (f 2) (f 1) (f 0)).getLsbD k = f k := by
  interval_cases k <;>
    simp only [byteOfBits, BitVec.getLsbD_append, BitVec.getLsbD_ofBool, Nat.reduceLT, Nat.reduceSub, if_true, if_false,
      decide_true, Bool.true_and]

/-! ### Which bits are taken -/

variable {p : Piu} {n : Nat}

/-- The model's test of a taken bit is the table of R116. -/
theorem Piu.taken_iff : p.taken n = true ↔ p.HandshakeBit n := by
  simp only [Piu.taken, Piu.HandshakeBit, Piu.strobedOut, Piu.strobedIn, Piu.strobed, Piu.dir, Bool.or_eq_true,
    Bool.and_eq_true, beq_iff_eq, Bool.not_eq_true']
  tauto

theorem Piu.isInteA_iff :
    p.isInteA n = true ↔ p.ma = 1 ∧ ((p.dirA = false ∧ n = 6) ∨ (p.dirA = true ∧ n = 4)) := by
  simp only [Piu.isInteA, Piu.strobedOut, Piu.strobedIn, Piu.strobed, Piu.dir, Bool.or_eq_true, Bool.and_eq_true,
    beq_iff_eq, Bool.not_eq_true']
  tauto

theorem Piu.isInteB_iff : p.isInteB n = true ↔ p.mb = true ∧ n = 2 := by
  simp [Piu.isInteB]

/-- An interrupt-enable bit is a handshake bit of its group (R116). -/
theorem Piu.HandshakeBit.of_isInteA (h : p.isInteA n = true) : p.HandshakeBit n := by
  obtain ⟨hma, ⟨hdir, hn⟩ | ⟨hdir, hn⟩⟩ := Piu.isInteA_iff.mp h
  · exact .inl ⟨hma, hdir, .inr (.inl hn)⟩
  · exact .inr (.inl ⟨hma, hdir, .inl hn⟩)

theorem Piu.HandshakeBit.of_isInteB (h : p.isInteB n = true) : p.HandshakeBit n := by
  obtain ⟨hmb, hn⟩ := Piu.isInteB_iff.mp h
  exact .inr (.inr ⟨hmb, .inr (.inr hn)⟩)

/-! ### Bit set/reset -/

section bitSet

variable {n : BitVec 3} {b : Bool}

theorem Piu.bitSet_of_isInteA (h : p.isInteA n.toNat = true) : p.bitSet n b = { p with inteA := b } :=
  if_pos h

/-- Group A's enable is bit 4 or 6, group B's bit 2, so that the two tests exclude each other. -/
theorem Piu.bitSet_of_isInteB (h : p.isInteB n.toNat = true) : p.bitSet n b = { p with inteB := b } := by
  have hA : ¬ p.isInteA n.toNat = true := by
    intro hA
    obtain ⟨-, hn⟩ := Piu.isInteB_iff.mp h
    obtain ⟨-, ⟨-, hn'⟩ | ⟨-, hn'⟩⟩ := Piu.isInteA_iff.mp hA <;> omega
  rw [Piu.bitSet, if_neg hA, if_pos h]

theorem Piu.bitSet_of_status (hA : ¬ p.isInteA n.toNat = true) (hB : ¬ p.isInteB n.toNat = true)
    (h : p.HandshakeBit n.toNat) : p.bitSet n b = p := by
  rw [Piu.bitSet, if_neg hA, if_neg hB, if_pos (Piu.taken_iff.mpr h)]

theorem Piu.bitSet_of_general (h : ¬ p.HandshakeBit n.toNat) :
    p.bitSet n b = { p with outC := setBit p.outC n.toNat b } := by
  rw [Piu.bitSet, if_neg (h ∘ .of_isInteA), if_neg (h ∘ .of_isInteB), if_neg (h ∘ Piu.taken_iff.mp)]

/-- A bit set/reset of a handshake bit reaches the interrupt enables alone. -/
theorem Piu.bitSet_of_handshakeBit (h : p.HandshakeBit n.toNat) :
    p.bitSet n b = { p with inteA := (p.bitSet n b).inteA, inteB := (p.bitSet n b).inteB } := by
  by_cases hA : p.isInteA n.toNat = true
  · rw [Piu.bitSet_of_isInteA hA]
  · by_cases hB : p.isInteB n.toNat = true
    · rw [Piu.bitSet_of_isInteB hB]
    · rw [Piu.bitSet_of_status hA hB h]

theorem Piu.bitSet_frame (p : Piu) (n : BitVec 3) (b : Bool) :
    p.bitSet n b
      = { p with inteA := (p.bitSet n b).inteA, inteB := (p.bitSet n b).inteB, outC := (p.bitSet n b).outC } := by
  by_cases h : p.HandshakeBit n.toNat
  · rw [Piu.bitSet_of_handshakeBit h]
  · rw [Piu.bitSet_of_general h]

end bitSet

theorem exec_bitSetInstr (q : PiuId) (n : BitVec 3) (b : Bool) (s : State) :
    exec (bitSetInstr q n b) s = .next (s.setPiu q ((s.piu q).bitSet n b)).piuUpdate := by
  cases q <;> rfl

/-- Settles O46: of the four cases of a bit set/reset, each clause is the one its bit belongs to. -/
theorem portCBitSet : Obligations.PortCBitSet := by
  intro q n b s
  refine ⟨(s.piu q).bitSet n b, exec_bitSetInstr q n b s, Piu.bitSet_frame _ n b, ?_, ?_, ?_, ?_, ?_⟩
  · rintro ⟨hma, hn⟩
    refine Piu.bitSet_of_isInteA (Piu.isInteA_iff.mpr ⟨hma, ?_⟩)
    exact hn.imp (And.imp_right (congrArg BitVec.toNat)) (And.imp_right (congrArg BitVec.toNat))
  · rintro ⟨hmb, hn⟩
    exact Piu.bitSet_of_isInteB (Piu.isInteB_iff.mpr ⟨hmb, congrArg BitVec.toNat hn⟩)
  · intro h
    rw [Piu.bitSet_of_handshakeBit h]
  · intro h
    rw [Piu.bitSet_of_general h]
    exact ⟨rfl, fun k hk => getLsbD_setBit _ hk b⟩
  · intro h h2 h4 h6
    refine Piu.bitSet_of_status (fun hA => ?_) (fun hB => ?_) h
    · obtain ⟨-, ⟨-, hn⟩ | ⟨-, hn⟩⟩ := Piu.isInteA_iff.mp hA
      · exact h6 (BitVec.eq_of_toNat_eq hn)
      · exact h4 (BitVec.eq_of_toNat_eq hn)
    · exact h2 (BitVec.eq_of_toNat_eq (Piu.isInteB_iff.mp hB).2)

/-! ### Reading and writing the port -/

theorem Piu.getLsbD_portC (p : Piu) (d : Byte) {k : Nat} (hk : k < 8) : (p.portC d).getLsbD k = p.portCBit d k :=
  getLsbD_byteOfBits (p.portCBit d) hk

/-- A handshake bit reads as its status value (R117). -/
theorem Piu.getLsbD_portC_of_handshakeBit (d : Byte) {k : Nat} (hk : k < 8) (h : p.HandshakeBit k) :
    (p.portC d).getLsbD k = p.statusBit k := by
  rw [p.getLsbD_portC d hk, Piu.portCBit, if_pos (Piu.taken_iff.mpr h)]

/-- Any other bit reads as the drawn byte's in an input nibble and as the latch's in an output nibble (R283). -/
theorem Piu.getLsbD_portC_of_not_handshakeBit (d : Byte) {k : Nat} (hk : k < 8) (h : ¬ p.HandshakeBit k) :
    (p.portC d).getLsbD k
      = if (if k < 4 then p.dirCl else p.dirCh) = true then d.getLsbD k else p.outC.getLsbD k := by
  rw [p.getLsbD_portC d hk, Piu.portCBit, if_neg (h ∘ Piu.taken_iff.mp)]
  rfl

theorem Piu.getLsbD_writeC (p : Piu) (v : Byte) {k : Nat} (hk : k < 8) :
    (p.writeC v).outC.getLsbD k = p.writeCBit v k :=
  getLsbD_byteOfBits (p.writeCBit v) hk

theorem Piu.getLsbD_writeC_of_handshakeBit (v : Byte) {k : Nat} (hk : k < 8) (h : p.HandshakeBit k) :
    (p.writeC v).outC.getLsbD k = p.outC.getLsbD k := by
  rw [p.getLsbD_writeC v hk, Piu.writeCBit, if_pos (Piu.taken_iff.mpr h)]

theorem Piu.getLsbD_writeC_of_not_handshakeBit (v : Byte) {k : Nat} (hk : k < 8) (h : ¬ p.HandshakeBit k) :
    (p.writeC v).outC.getLsbD k = v.getLsbD k := by
  rw [p.getLsbD_writeC v hk, Piu.writeCBit, if_neg (h ∘ Piu.taken_iff.mp)]

theorem exec_portCReadInstr (q : PiuId) (s : State) :
    exec (portCReadInstr q) s
      = .next { s with draws := s.draws + 1
                       trace := s.trace ++ [portCEvent q ((s.piu q).portC (Config.draw s.draws))] } := by
  cases q <;> rfl

theorem exec_portCWriteInstr (q : PiuId) (v : Byte) (s : State) :
    exec (portCWriteInstr q v) s = .next (s.setPiu q ((s.piu q).writeC v)).piuUpdate := by
  cases q <;> rfl

/-- Settles O49: each bit of the byte read and of the latch written is a handshake bit or a general one. -/
theorem portCReadAndWrite : Obligations.PortCReadAndWrite := by
  intro q v s
  have hstatus {k : Nat} (hk : k < 8) (h : (s.piu q).HandshakeBit k) :
      ((s.piu q).portC (Config.draw s.draws)).getLsbD k = (s.piu q).statusBit k :=
    Piu.getLsbD_portC_of_handshakeBit _ hk h
  refine ⟨⟨_, exec_portCReadInstr q s, fun hma hdir => ?_, fun hma hdir => ?_, fun hmb => ?_,
      fun k hk h => Piu.getLsbD_portC_of_not_handshakeBit _ hk h⟩,
    ⟨_, exec_portCWriteInstr q v s, fun k hk => ⟨Piu.getLsbD_writeC_of_handshakeBit v hk,
      Piu.getLsbD_writeC_of_not_handshakeBit v hk⟩⟩⟩
  · exact ⟨hstatus (by decide) (.inl ⟨hma, hdir, .inl rfl⟩), hstatus (by decide) (.inl ⟨hma, hdir, .inr (.inl rfl)⟩),
      hstatus (by decide) (.inl ⟨hma, hdir, .inr (.inr rfl)⟩)⟩
  · exact ⟨hstatus (by decide) (.inr (.inl ⟨hma, hdir, .inr (.inl rfl)⟩)),
      hstatus (by decide) (.inr (.inl ⟨hma, hdir, .inl rfl⟩)),
      hstatus (by decide) (.inr (.inl ⟨hma, hdir, .inr (.inr rfl)⟩))⟩
  · exact ⟨hstatus (by decide) (.inr (.inr ⟨hmb, .inr (.inr rfl)⟩)), hstatus (by decide) (.inr (.inr ⟨hmb, .inl rfl⟩)),
      hstatus (by decide) (.inr (.inr ⟨hmb, .inr (.inl rfl)⟩))⟩

end Sys2Proof.Machine

/-! A byte on a MIDI stream and the row of its class (spec/30_encoding.md R120, spec/45_midi_classifier.md R340,
R350). -/

namespace Sys2Proof.Machine

variable {b : Byte}

/-! ### A byte from its class and its low bits -/

theorem highNibble_append_low {hi : BitVec 4} (h : (b.extractLsb' 4 4).toNat = hi.toNat) :
    hi ++ b.extractLsb' 0 4 = b := by
  rw [← BitVec.eq_of_toNat_eq h]
  clear h
  revert b
  decide

theorem nibbles_append_eq {hi lo : BitVec 4} (hhi : (b.extractLsb' 4 4).toNat = hi.toNat)
    (hlo : (b.extractLsb' 0 4).toNat = lo.toNat) : hi ++ lo = b := by
  rw [← BitVec.eq_of_toNat_eq hlo, highNibble_append_low hhi]

/-- A data byte is its low seven bits (R120). -/
theorem data_append_low (h : (b.extractLsb' 4 4).toNat < 8) : 0#1 ++ b.extractLsb' 0 7 = b := by
  revert b
  decide

/-- A real-time byte is its low three bits over the class (R120, R353). -/
theorem realTime_append_low (hhi : (b.extractLsb' 4 4).toNat = 0xF) (hlo : 8 ≤ (b.extractLsb' 0 4).toNat) :
    0x1F#5 ++ b.extractLsb' 0 3 = b := by
  revert b
  decide

/-! ### The row of a byte -/

/-- A row that feeds the byte `b'` feeds `b` when they are the same byte. -/
theorem exec_feeds {i : Instr} {st : Stream} {b' : Byte} {s : State} (hrow : exec i s = .next (s.midiFeed st b'))
    (hb : b' = b) : exec i s = .next (s.midiFeed st b) :=
  hb ▸ hrow

theorem exec_decodeMidiSystem (st : Stream) (h : (b.extractLsb' 4 4).toNat = 0xF) (s : State) :
    exec (decodeMidiSystem st b) s = .next (s.midiFeed st b) := by
  unfold decodeMidiSystem
  split
  case h_1 hlo => exact exec_feeds rfl (nibbles_append_eq (hi := 0xF) (lo := 0) h hlo)
  case h_2 hlo => exact exec_feeds rfl (nibbles_append_eq (hi := 0xF) (lo := 1) h hlo)
  case h_3 hlo => exact exec_feeds rfl (nibbles_append_eq (hi := 0xF) (lo := 2) h hlo)
  case h_4 hlo => exact exec_feeds rfl (nibbles_append_eq (hi := 0xF) (lo := 3) h hlo)
  case h_5 hlo => exact exec_feeds rfl (nibbles_append_eq (hi := 0xF) (lo := 4) h hlo)
  case h_6 hlo => exact exec_feeds rfl (nibbles_append_eq (hi := 0xF) (lo := 5) h hlo)
  case h_7 hlo => exact exec_feeds rfl (nibbles_append_eq (hi := 0xF) (lo := 6) h hlo)
  case h_8 hlo => exact exec_feeds rfl (nibbles_append_eq (hi := 0xF) (lo := 7) h hlo)
  case h_9 => exact exec_feeds rfl (realTime_append_low h (by simp only [imp_false] at *; omega))

/-- The row of a byte feeds that byte to the classifier of its stream (R120, R340). -/
theorem exec_decodeMidi (st : Stream) (b : Byte) (s : State) :
    exec (decodeMidi st b) s = .next (s.midiFeed st b) := by
  unfold decodeMidi
  split
  case h_1 h | h_2 h | h_3 h | h_4 h | h_5 h | h_6 h | h_7 h => exact exec_feeds rfl (highNibble_append_low h)
  case h_8 h => exact exec_decodeMidiSystem st h s
  case h_9 =>
    have hnibble : (b.extractLsb' 4 4).toNat < 16 := (b.extractLsb' 4 4).isLt
    exact exec_feeds rfl (data_append_low (by simp only [imp_false] at *; omega))

/-- Settles O57: `MidiFeed` and the row of the byte both feed it to the classifier. -/
theorem midiFeedAndFlow : Obligations.MidiFeedAndFlow :=
  fun st b _ s => ⟨⟨s.midiFeed st b, rfl, exec_decodeMidi st b s⟩, rfl⟩

end Sys2Proof.Machine

/-! The encoding tables as stated: sample words, and the FM register map with its unassigned addresses
(spec/30_encoding.md R90 to R98, R105, R115, R120). -/

namespace Sys2Proof

/-- Settles O3: each word is the one the encoder writes for its operation, which decodes back (O1). -/
theorem sampleWordsDecode : Obligations.SampleWordsDecode :=
  ⟨encodedInstructionsDecodeBack (.outPiuHPa 0x5A) rfl,
    encodedInstructionsDecodeBack (.outPiuHMode ⟨1, false, false, true, true, false⟩) rfl,
    encodedInstructionsDecodeBack (.outPitControl 1 3 2 true) rfl,
    encodedInstructionsDecodeBack (.inNetTsr 2) rfl,
    encodedInstructionsDecodeBack (.fwoutBsr 4 true) rfl,
    encodedInstructionsDecodeBack .fwinFmData rfl,
    encodedInstructionsDecodeBack (.fmwKsAr 3 2 3 0x15) rfl,
    encodedInstructionsDecodeBack (.midiProgramChange .host 5) rfl⟩

/-! ### The unassigned addresses -/

/-- The assigned addresses below 0x20 (R97). -/
def assignedSystem : List Byte :=
  [0x01, 0x08, 0x0F, 0x10, 0x11, 0x12, 0x14, 0x18, 0x19, 0x1B]

/-- The addresses below 0x20 that the map leaves out (R98). -/
theorem decodeFmSystem_eq_unassigned_iff (a v : Byte) :
    decodeFmSystem a v = .unassigned ↔ a ∉ assignedSystem := by
  unfold decodeFmSystem assignedSystem
  split <;> simp_all [← BitVec.toNat_inj]

/-- Only a system address can be unassigned (R98). -/
theorem decodeFm_eq_unassigned_iff (a v : Byte) :
    decodeFm a v = .unassigned ↔ (a.extractLsb' 5 3).toNat = 0 ∧ a ∉ assignedSystem := by
  rw [← decodeFmSystem_eq_unassigned_iff a v]
  unfold decodeFm
  dsimp only
  split
  case h_1 h => simp [h]
  case h_2 h =>
    unfold decodeFmChannel
    split <;> simp [h]
  case h_3 h | h_4 h | h_5 h | h_6 h | h_7 h => simp [h]
  case h_8 hsystem _ _ _ _ _ _ => exact iff_of_false (by simp) fun ⟨h, _⟩ => hsystem h

theorem decodeFm_of_address_eq {a a' v : Byte} {r : FmReg} (h : decodeFm a' v = r) (ha : a' = a) :
    decodeFm a v = r :=
  ha ▸ h

/-- Settles O4: the map's equations at the addresses as R95 and R96 write them, and the 22 addresses they leave. -/
theorem fmRegisterMap : Obligations.FmRegisterMap := by
  refine ⟨fun v => ⟨decodeFm_test v, decodeFm_kon v, decodeFm_noise v, decodeFm_clka1 v, decodeFm_clka2 v,
      decodeFm_clkb v, decodeFm_timer v, decodeFm_lfrq v, decodeFm_depth v, decodeFm_ctW v⟩,
    fun c v => ?_, fun s c v => ?_, fun a v => ?_⟩
  · obtain ⟨h4, h5, h6, h7⟩ := Machine.channelAddress_eq c
    exact ⟨decodeFm_of_address_eq (decodeFm_rlFbCon c v) h4, decodeFm_of_address_eq (decodeFm_kc c v) h5,
      decodeFm_of_address_eq (decodeFm_kf c v) h6, decodeFm_of_address_eq (decodeFm_pmsAms c v) h7⟩
  · have haddr (g : BitVec 3) := Machine.operatorAddress_eq g s c
    exact ⟨decodeFm_of_address_eq (decodeFm_dt1Mul s c v) (haddr 2),
      decodeFm_of_address_eq (decodeFm_tl s c v) (haddr 3), decodeFm_of_address_eq (decodeFm_ksAr s c v) (haddr 4),
      decodeFm_of_address_eq (decodeFm_amsD1r s c v) (haddr 5),
      decodeFm_of_address_eq (decodeFm_dt2D2r s c v) (haddr 6),
      decodeFm_of_address_eq (decodeFm_d1lRr s c v) (haddr 7)⟩
  · rw [decodeFm_eq_unassigned_iff]
    revert a
    decide

end Sys2Proof

/-! The reads of the write-only registers (spec/30_encoding.md R90, R92, R123; log 5). -/

namespace Sys2Proof.Machine

/-- A drawn byte returned is one draw taken and one output (R10; log 4, 5). -/
theorem State.takeDraw_output (s : State) (e : Event) :
    s.takeDraw.output e = { s with draws := s.draws + 1, trace := s.trace ++ [e] } :=
  rfl

/-- Settles O20: each of the three rows is one draw returned. -/
theorem writeOnlyReadsDraw : Obligations.WriteOnlyReadsDraw :=
  fun s => ⟨congrArg Host.Outcome.next (s.takeDraw_output (.portRead 3 s.drawn)),
    congrArg Host.Outcome.next (s.takeDraw_output (.portRead 7 s.drawn)),
    congrArg Host.Outcome.next (s.takeDraw_output (.fwRead .mode s.drawn))⟩

end Sys2Proof.Machine

/-! The derived fields at the default configuration fields (spec/40_fm_registers.md R155, R156, R158; log 7, 8). -/

namespace Sys2Proof.Machine

/-- The reset engine is the one RESET makes, with the derived fields recomputed (R390, R391; log 24). -/
theorem Fm.reset_derivedSound : Fm.reset.DerivedSound params :=
  Fm.resetFor_params ▸ Fm.resetFor_derivedSound params

/-- Settles O9: `step` is the step of the default configuration fields, and the step of any fields keeps the derived
fields. -/
theorem derivedFieldsKept : Obligations.DerivedFieldsKept :=
  ⟨Fm.reset_derivedSound, fun s _ hs h => stepWith_keeps_derivedSound hs (step_eq_stepWith s ▸ h)⟩

end Sys2Proof.Machine

/-! The select latch, the status register and the key-on and timer rows (spec/40_fm_registers.md R130, R132, R134,
R139). -/

namespace Sys2Proof.Machine

/-! ### Key-on and key-off -/

/-- What a slot of a KON write takes, by its bit (R134). -/
theorem Operator.gate_result (cnt : BitVec 32) (on : Bool) (o : Operator) :
    if on = true then KeyOnResult cnt 1 o (o.gate params cnt on) else KeyOffResult 1 o (o.gate params cnt on) := by
  cases on
  · exact o.keyOff_result 1
  · exact o.keyOn_result cnt 1

/-- Settles O23: KON writes the channel's operators alone, and each slot is gated by its own bit. -/
theorem keyOnOffWrite : Obligations.KeyOnOffWrite := by
  intro c m1 c1 m2 c2 s
  obtain ⟨t, ht, hrest, hframe, hchan⟩ := exec_channelRow (i := .fmwKon c m1 c1 m2 c2) (s := s) rfl rfl
  refine ⟨t, ht, hrest, hframe, by rw [hchan], ?_⟩
  have hgate (on : Bool) (sl : BitVec 2) := Operator.gate_result s.fm.egCnt on (s.fm.op c sl)
  simp only [List.forall_mem_cons, Fm.op, hchan]
  exact ⟨hgate m1 0, hgate m2 1, hgate c1 2, hgate c2 3, List.forall_mem_nil _⟩

/-! ### The timer row -/

/-- A flag reset clears its flag and leaves it otherwise (R139). -/
theorem flag_and_not_reset (flag reset : Bool) : (flag && !reset) = if reset = true then false else flag := by
  cases reset <;> simp

/-- A LOAD bit rises when it is written 1 over 0 (R139). -/
theorem load_rises_iff (load old : Bool) : (load && !old) = true ↔ load = true ∧ old = false := by
  rw [Bool.and_eq_true, Bool.not_eq_true']

/-- Settles O22: the pair selects 0x14, and the flags, counts and request of the TIMER write are those of R139. -/
theorem fmTimerWrite : Obligations.FmTimerWrite := by
  intro s csm resetB resetA irqenB irqenA loadB loadA
  simp only [← flag_and_not_reset, ← load_rises_iff]
  rfl

/-! ### The select latch and the status register -/

/-- The status byte: bit 7 and bits 6:2 are 0 (R93, R132). -/
theorem Fm.status_eq (fm : Fm) :
    fm.status = 0#1 ++ 0#5 ++ BitVec.ofBool fm.flagB ++ BitVec.ofBool fm.flagA := by
  unfold Fm.status
  cases fm.flagB <;> cases fm.flagA <;> rfl

/-- A row that returns the status byte outputs it and changes nothing else (R132; log 4). -/
theorem State.output_status (s : State) :
    s.output (.fwRead .fmData s.fm.status)
      = { s with trace := s.trace
            ++ [.fwRead .fmData (0#1 ++ 0#5 ++ BitVec.ofBool s.fm.flagB ++ BitVec.ofBool s.fm.flagA)] } := by
  rw [State.output, Fm.status_eq]

/-- Settles O18: a write to the select latch, an output of the status byte, and a draw returned. -/
theorem fmSelectAndStatus : Obligations.FmSelectAndStatus :=
  fun _ s => ⟨rfl, congrArg Host.Outcome.next s.output_status,
    congrArg Host.Outcome.next (s.takeDraw_output (.fwRead .fmSel s.drawn))⟩

end Sys2Proof.Machine

/-! The default `OPOUT` and its tables (spec/41_fm_generator.md R196, R197; log 8, 25). -/

namespace Sys2Proof.Machine

/-- Every step of the exponential table lies in the octave that starts at 8168 (R197). -/
theorem expTab_getD_bounds (i : Nat) : 0 ≤ expTab.getD i 0 ∧ expTab.getD i 0 ≤ 8168 := by
  have hmem : ∀ n ∈ expTab, (0 : Int) ≤ n ∧ n ≤ 8168 := by
    simp only [expTab, List.forall_mem_append]
    decide
  by_cases hi : i < expTab.length
  · rw [List.getD_eq_getElem _ _ hi]
    exact hmem _ (List.getElem_mem hi)
  · rw [List.getD_eq_default _ _ (not_lt.mp hi)]
    decide

/-- The octaves shift the table down, and the sign bit negates it. -/
theorem tlTab_bounds (p : Nat) : -8168 ≤ tlTab p ∧ tlTab p ≤ 8168 := by
  obtain ⟨hlo, hhi⟩ := expTab_getD_bounds (p % 512 / 2)
  have hpos : 0 ≤ expTab.getD (p % 512 / 2) 0 / (2 ^ (p / 512) : Nat) := Int.ediv_nonneg hlo (Int.natCast_nonneg _)
  have hle := Int.ediv_le_self ((2 ^ (p / 512) : Nat) : Int) hlo
  unfold tlTab
  dsimp only
  split <;> omega

theorem opOut_bounds (idx env : Nat) : -8168 ≤ opOut idx env ∧ opOut idx env ≤ 8168 := by
  unfold opOut
  dsimp only
  split
  · decide
  · exact tlTab_bounds _

/-- From `ENV_QUIET` on the table is left (R196). -/
theorem opOut_eq_zero_of_quiet {idx env : Nat} (h : 832 ≤ env) : opOut idx env = 0 :=
  if_pos (by omega)

/-- The first half of the sine has sign bit 0 (R197). -/
theorem sinTab_even {k : Nat} (h : k < 512) : sinTab k % 2 = 0 := by
  simp [sinTab, h]

/-- The second half of the sine is the first with the sign bit set (R197). -/
theorem sinTab_add_half {k : Nat} (h : k < 512) : sinTab (k + 512) = sinTab k + 1 := by
  simp [sinTab, h]

/-- The sign bit of the table index negates the output (R197). -/
theorem tlTab_succ_of_even {p : Nat} (h : p % 2 = 0) : tlTab (p + 1) = -tlTab p := by
  have hstep : (p + 1) % 512 / 2 = p % 512 / 2 := by omega
  have hoctave : (p + 1) / 512 = p / 512 := by omega
  have hodd : (p + 1) % 2 ≠ 0 := by omega
  simp only [tlTab, hstep, hoctave, if_neg hodd, if_pos h]

theorem opOut_add_half {idx : Nat} (h : idx < 512) (env : Nat) : opOut (idx + 512) env = -opOut idx env := by
  have heven := sinTab_even h
  simp only [opOut, sinTab_add_half h, ← Nat.add_assoc]
  by_cases hp : 6656 ≤ env * 8 + sinTab idx
  · rw [if_pos hp, if_pos (by omega), neg_zero]
  · rw [if_neg hp, if_neg (by omega), tlTab_succ_of_even (by omega)]

/-- Settles O36: the bounds are those of the tables, and bit 9 of the index is the sign bit of the table index. -/
theorem operatorOutputBound : Obligations.OperatorOutputBound :=
  ⟨opOut_bounds, fun _ _ => opOut_eq_zero_of_quiet, fun _ env h => opOut_add_half h env, rfl⟩

end Sys2Proof.Machine

/-! The LFO and the noise register (spec/41_fm_generator.md R171 to R175; log 8, 9, 21). -/

namespace Sys2Proof.Machine

/-! ### LFO -/

/-- `LFO_STEP` before the timer's threshold counts (R173). -/
theorem lfoStep_count {lfrq : Byte} {timer : Nat} (h : timer + 1 < 2 ^ (18 - (lfrq.extractLsb 7 4).toNat))
    (phase : BitVec 8) (frac : BitVec 4) : lfoStep lfrq phase timer frac = (phase, timer + 1, frac) :=
  if_neg (not_le.mpr h)

/-- `LFO_STEP` at the timer's threshold moves the phase by the whole part of its fraction's sum (R173). -/
theorem lfoStep_move {lfrq : Byte} {timer : Nat} (h : 2 ^ (18 - (lfrq.extractLsb 7 4).toNat) ≤ timer + 1)
    (phase : BitVec 8) (frac : BitVec 4) :
    lfoStep lfrq phase timer frac
      = (phase + BitVec.ofNat 8 ((frac.toNat + 16 + (lfrq.extractLsb 3 0).toNat) / 16), 0,
          BitVec.ofNat 4 (frac.toNat + 16 + (lfrq.extractLsb 3 0).toNat)) :=
  if_pos h

/-- The phase and the accumulator of a sample: held, or moved by `LFO_STEP` (R171, R172; log 21). -/
theorem Fm.lfoAdvance_phase (P : Params) (fm : Fm) :
    ((fm.lfoAdvance P).lfoPhase, (fm.lfoAdvance P).lfoTimer, (fm.lfoAdvance P).lfoFrac)
      = if fm.test.getLsbD 1 then (0, fm.lfoTimer, fm.lfoFrac)
        else P.lfoStep fm.lfrq fm.lfoPhase fm.lfoTimer fm.lfoFrac :=
  rfl

theorem Fm.lfoAdvance_of_held (P : Params) {fm : Fm} (h : fm.test.getLsbD 1 = true) :
    (fm.lfoAdvance P).lfoPhase = 0 ∧ (fm.lfoAdvance P).lfoTimer = fm.lfoTimer
      ∧ (fm.lfoAdvance P).lfoFrac = fm.lfoFrac := by
  have hacc := fm.lfoAdvance_phase P
  rw [if_pos h] at hacc
  simpa only [Prod.mk.injEq] using hacc

theorem Fm.lfoAdvance_of_count {fm : Fm} (htest : fm.test.getLsbD 1 = false)
    (h : fm.lfoTimer + 1 < 2 ^ (18 - (fm.lfrq.extractLsb 7 4).toNat)) :
    (fm.lfoAdvance params).lfoPhase = fm.lfoPhase ∧ (fm.lfoAdvance params).lfoTimer = fm.lfoTimer + 1
      ∧ (fm.lfoAdvance params).lfoFrac = fm.lfoFrac := by
  have hacc := fm.lfoAdvance_phase params
  rw [htest, if_neg Bool.false_ne_true, params_lfoStep, lfoStep_count h] at hacc
  simpa only [Prod.mk.injEq] using hacc

theorem Fm.lfoAdvance_of_move {fm : Fm} (htest : fm.test.getLsbD 1 = false)
    (h : 2 ^ (18 - (fm.lfrq.extractLsb 7 4).toNat) ≤ fm.lfoTimer + 1) :
    (fm.lfoAdvance params).lfoTimer = 0
      ∧ (fm.lfoAdvance params).lfoPhase.toNat
          = (fm.lfoPhase.toNat + ((fm.lfoFrac.toNat + 16 + (fm.lfrq.extractLsb 3 0).toNat) >>> 4)) % 256
      ∧ (fm.lfoAdvance params).lfoFrac.toNat = (fm.lfoFrac.toNat + 16 + (fm.lfrq.extractLsb 3 0).toNat) % 16 := by
  have hacc := fm.lfoAdvance_phase params
  rw [htest, if_neg Bool.false_ne_true, params_lfoStep, lfoStep_move h] at hacc
  simp only [Prod.mk.injEq] at hacc
  obtain ⟨hphase, htimer, hfrac⟩ := hacc
  refine ⟨htimer, ?_, ?_⟩
  · rw [hphase, BitVec.toNat_add, BitVec.toNat_ofNat, Nat.add_mod_mod, Nat.shiftRight_eq_div_pow]
  · rw [hfrac, BitVec.toNat_ofNat]

/-- The triangle of R174 over the integers: on each half the subtraction stays at 0 or above. -/
theorem lfoWaveAt_triangle (p : BitVec 8) :
    ((lfoWaveAt 2 p).1 : Int) = if p < 128 then 255 - 2 * (p.toNat : Int) else 2 * (p.toNat : Int) - 256 := by
  have hlow : p < 128 ↔ p.toNat < 128 := Iff.rfl
  show (((if p.toNat < 128 then 255 - 2 * p.toNat else 2 * p.toNat - 256 : Nat)) : Int) = _
  simp only [hlow]
  split <;> omega

/-! ### Noise -/

/-- One shift of the noise register as R175 writes it: the register shifted right, the inverted sum of bits 0 and 3 on
top. -/
theorem noiseShift_eq (r : BitVec 17) :
    noiseShift r = (r >>> 1) ||| ((((r ^^^ (r >>> 3)) &&& 1) ^^^ 1) <<< 16) := by
  unfold noiseShift
  apply BitVec.eq_of_getLsbD_eq
  intro i hi
  rw [BitVec.getLsbD_append]
  by_cases htop : i < 16
  · simp [htop, Nat.add_comm]
  · obtain rfl : i = 16 := by omega
    simp

/-- The first shift may come last (R175). -/
theorem noiseShifts_succ (k : Nat) (r : BitVec 17) : noiseShifts (k + 1) r = noiseShift (noiseShifts k r) := by
  induction k generalizing r with
  | zero => rfl
  | succ k ih => rw [noiseShifts, ih]; rfl

theorem noiseShifts_eq_repeat (k : Nat) (r : BitVec 17) : noiseShifts k r = Nat.repeat noiseShift k r := by
  induction k with
  | zero => rfl
  | succ k ih => rw [noiseShifts_succ, ih]; rfl

/-- A sum of `k` whole turns of the noise accumulator and a rest takes `k` shifts and leaves the rest (R175). -/
theorem Fm.noiseAdvance_of_sum {fm : Fm} {k acc : Nat} (hacc : acc < 65536)
    (hsum : fm.noiseAcc.toNat + noiseStep fm.nfrq = 65536 * k + acc) :
    fm.noiseAdvance params
      = { fm with noiseAcc := BitVec.ofNat 16 acc, noiseRng := noiseShifts k fm.noiseRng } := by
  have hrest : BitVec.ofNat 16 (65536 * k + acc) = BitVec.ofNat 16 acc := BitVec.eq_of_toNat_eq (by simp)
  have hturns : (65536 * k + acc) / 65536 = k := by omega
  simp only [Fm.noiseAdvance, params_noiseStep, hsum, hrest, hturns]

/-- Settles O28: the phase by its three cases, the waveforms by their definition, and the noise sum divided by 65536. -/
theorem lfoAndNoiseAdvance : Obligations.LfoAndNoiseAdvance := by
  refine ⟨fun fm => ?_, fun fm => ?_⟩
  · refine ⟨_, rfl, rfl, Fm.lfoAdvance_of_held params, Fm.lfoAdvance_of_count, Fm.lfoAdvance_of_move,
      (lfoWaveAt fm.lfoWave (fm.lfoAdvance params).lfoPhase).1, (lfoWaveAt fm.lfoWave (fm.lfoAdvance params).lfoPhase).2,
      rfl, rfl, ?_, ?_, ?_, ?_⟩ <;> intro h <;> rw [h]
    · exact ⟨rfl, rfl⟩
    · exact ⟨rfl, rfl⟩
    · exact ⟨lfoWaveAt_triangle _, rfl⟩
    · exact ⟨rfl, rfl⟩
  · have hshift : (fun r : BitVec 17 => (r >>> 1) ||| ((((r ^^^ (r >>> 3)) &&& 1) ^^^ 1) <<< 16)) = noiseShift :=
      funext fun r => (noiseShift_eq r).symm
    simp only [hshift, ← noiseShifts_eq_repeat]
    have hsum := (Nat.div_add_mod (fm.noiseAcc.toNat + noiseStep fm.nfrq) 65536).symm
    have hacc := Nat.mod_lt (fm.noiseAcc.toNat + noiseStep fm.nfrq) (y := 65536) (by decide)
    exact ⟨_, _, hsum, hacc, Fm.noiseAdvance_of_sum hacc hsum⟩

end Sys2Proof.Machine

/-! The envelope divider, CSM and the FM timers (spec/41_fm_generator.md R180, R220 to R224). -/

namespace Sys2Proof.Machine

/-! ### Every operator at once -/

/-- What changes all 32 operators changes nothing else of their channels. -/
theorem Fm.chan_onOps_frame (fm : Fm) (f : Channel → Operator → Operator) (c : BitVec 3) :
    (fm.onOps f).chan c = { fm.chan c with ops := ((fm.onOps f).chan c).ops } := by
  rw [Fm.chan_onOps]

/-! ### The divider -/

theorem Fm.egDivide_of_ne {P : Params} {fm : Fm} (h : fm.egDiv ≠ 2) :
    fm.egDivide P = { fm with egDiv := fm.egDiv + 1 } :=
  if_neg (by omega)

theorem Fm.egDivide_of_eq {P : Params} {fm : Fm} (h : fm.egDiv = 2) :
    fm.egDivide P
      = Fm.onOps { fm with egDiv := 0, egCnt := fm.egCnt + 1 } fun _ o => o.egStep P (fm.egCnt + 1) :=
  if_pos (by omega)

/-- Settles O29: the third sample is an envelope step of every operator. -/
theorem envelopeDivider : Obligations.EnvelopeDivider := by
  intro fm
  refine ⟨Fm.egDivide_of_ne, fun h => ⟨_, Fm.egDivide_of_eq h, rfl, Fm.chan_onOps_frame _ _, fun c sl => ?_⟩⟩
  rw [Fm.op_onOps]
  exact Operator.egStep_result _ _

/-! ### CSM -/

theorem Fm.csmStep_of_two {P : Params} {fm : Fm} (h : fm.csmReq = 2) :
    fm.csmStep P = Fm.onOps { fm with csmReq := 1 } fun _ o => o.keyOn P fm.egCnt 2 :=
  if_pos h

theorem Fm.csmStep_of_one {P : Params} {fm : Fm} (h : fm.csmReq = 1) :
    fm.csmStep P = Fm.onOps { fm with csmReq := 0 } fun _ o => o.keyOff 2 := by
  simp [Fm.csmStep, h]

theorem Fm.csmStep_of_zero {P : Params} {fm : Fm} (h : fm.csmReq = 0) : fm.csmStep P = fm := by
  simp [Fm.csmStep, h]

/-! ### The timers -/

/-- Timer A reaches 0 at a count of 1 (R220). -/
theorem Fm.timerA_of_one {fm : Fm} (h : fm.loadA = true ∧ fm.taCnt = 1) :
    fm.timerA = { fm with
      taCnt := 1024 - fm.ta.toNat
      flagA := fm.flagA || fm.irqenA
      csmReq := if fm.csm = true then 2 else fm.csmReq } := by
  obtain ⟨hload, hcnt⟩ := h
  simp [Fm.timerA, Fm.taPeriod, hload, hcnt]

/-- Timer A counts while it runs and stands while it does not (R220). -/
theorem Fm.timerA_of_not_one {fm : Fm} (hpos : fm.loadA = true → 1 ≤ fm.taCnt)
    (h : ¬ (fm.loadA = true ∧ fm.taCnt = 1)) :
    fm.timerA = { fm with taCnt := if fm.loadA = true then fm.taCnt - 1 else fm.taCnt } := by
  unfold Fm.timerA
  split
  next hload =>
    have := hpos hload
    have hne : fm.taCnt ≠ 1 := fun e => h ⟨hload, e⟩
    rw [if_neg (by omega)]
  next => rfl

/-- Timer B reaches 0 at a count of 1 (R221). -/
theorem Fm.timerB_of_one {fm : Fm} (h : fm.loadB = true ∧ fm.tbCnt = 1) :
    fm.timerB = { fm with tbCnt := 16 * (256 - fm.tb.toNat), flagB := fm.flagB || fm.irqenB } := by
  obtain ⟨hload, hcnt⟩ := h
  simp [Fm.timerB, Fm.tbPeriod, hload, hcnt]

/-- Timer B counts while it runs and stands while it does not (R221). -/
theorem Fm.timerB_of_not_one {fm : Fm} (hpos : fm.loadB = true → 1 ≤ fm.tbCnt)
    (h : ¬ (fm.loadB = true ∧ fm.tbCnt = 1)) :
    fm.timerB = { fm with tbCnt := if fm.loadB = true then fm.tbCnt - 1 else fm.tbCnt } := by
  unfold Fm.timerB
  split
  next hload =>
    have := hpos hload
    have hne : fm.tbCnt ≠ 1 := fun e => h ⟨hload, e⟩
    rw [if_neg (by omega)]
  next => rfl

/-- Timer A reaches its own fields and the CSM request alone. -/
theorem Fm.timerA_frame (fm : Fm) :
    fm.timerA = { fm with taCnt := fm.timerA.taCnt, flagA := fm.timerA.flagA, csmReq := fm.timerA.csmReq } := by
  unfold Fm.timerA
  split
  · split <;> rfl
  · rfl

/-- The two timers work side by side: neither reads what the other writes. -/
theorem Fm.timers_eq (fm : Fm) :
    fm.timers = { fm with
      taCnt := fm.timerA.taCnt, flagA := fm.timerA.flagA, csmReq := fm.timerA.csmReq
      tbCnt := fm.timerB.tbCnt, flagB := fm.timerB.flagB, irq := fm.timerA.flagA || fm.timerB.flagB } := by
  rw [Fm.timers, Fm.timerA_frame]
  by_cases hload : fm.loadB = true
  · by_cases hzero : fm.tbCnt - 1 = 0 <;> simp [Fm.timerB, Fm.refreshIrq, Fm.tbPeriod, hload, hzero]
  · simp [Fm.timerB, Fm.refreshIrq, hload]

/-- Settles O32: CSM by the request it finds, then each timer by whether it reaches 0. -/
theorem fmTimersAndCsm : Obligations.FmTimersAndCsm := by
  refine ⟨fun fm => ⟨fun h => ?_, fun h => ?_, Fm.csmStep_of_zero⟩, fun fm hposA hposB => ?_⟩
  · refine ⟨_, Fm.csmStep_of_two h, rfl, Fm.chan_onOps_frame _ _, fun c sl => ?_⟩
    rw [Fm.op_onOps]
    exact Operator.keyOn_result _ _ _
  · refine ⟨_, Fm.csmStep_of_one h, rfl, Fm.chan_onOps_frame _ _, fun c sl => ?_⟩
    rw [Fm.op_onOps]
    exact Operator.keyOff_result _ _
  · refine ⟨_, Fm.timers_eq fm, rfl, ?_, ?_⟩
    · split
      next h => rw [Fm.timerA_of_one h]; exact ⟨rfl, rfl, rfl⟩
      next h => rw [Fm.timerA_of_not_one hposA h]; exact ⟨rfl, rfl, rfl⟩
    · split
      next h => rw [Fm.timerB_of_one h]; exact ⟨rfl, rfl⟩
      next h => rw [Fm.timerB_of_not_one hposB h]; exact ⟨rfl, rfl⟩

end Sys2Proof.Machine

/-! A channel's output (spec/41_fm_generator.md R195 to R205; log 8, 28). -/

namespace Sys2Proof.Machine

/-- The connections of a channel as one walk along the bus (R199): from the delay cell, M1's output and the three other
operators as functions of their inputs, the new delay cell and the channel's output. -/
def Bus.run (con : BitVec 3) (mem m1 : Int) (m2 c1 c2 : Int → Int) : Int × Int :=
  let b0 := (Bus.start con mem).fromM1 con m1
  let b1 := b0.fromM2 con (m2 b0.inM2)
  let b2 := b1.fromC1 con (c1 b1.inC1)
  (b2.mem, b2.out + c2 b2.inC2)

/-- The eight algorithms in closed form (R199). -/
theorem Bus.run_eq (con : BitVec 3) (mem m1 : Int) (m2 c1 c2 : Int → Int) :
    Bus.run con mem m1 m2 c1 c2 =
      match con.toNat with
      | 0 => (c1 m1, c2 (m2 mem))
      | 1 => (m1 + c1 0, c2 (m2 mem))
      | 2 => (c1 0, c2 (m1 + m2 mem))
      | 3 => (c1 m1, c2 (mem + m2 0))
      | 4 => (0, c1 m1 + c2 (m2 0))
      | 5 => (m1, m2 mem + c1 m1 + c2 m1)
      | 6 => (0, m2 0 + c1 m1 + c2 0)
      | _ => (0, m1 + m2 0 + c1 0 + c2 0) := by
  revert con
  apply forall_channel
  simp [Bus.run, Bus.start, Bus.fromM1, Bus.fromM2, Bus.fromC1]

/-- The output that stands in C2's place for an input (R198, R205). -/
def c2Out (P : Params) (lfa : Nat) (noise : Option (BitVec 17)) (ch : Channel) (x : Int) : Int :=
  match noise with
  | none => operatorOut P lfa ch ch.ops.c2 (asr x 1)
  | some rng => noiseOut (envOf lfa ch ch.ops.c2) rng

/-- A channel's output is a walk along its bus from the delay cell and M1's output of the sample before (R201). -/
theorem Channel.output_eq (P : Params) (lfa : Nat) (noise : Option (BitVec 17)) (ch : Channel) :
    (((ch.output P lfa noise).1.mem, (ch.output P lfa noise).2) : Int × Int)
      = Bus.run ch.con ch.mem ch.fbCur (fun x => operatorOut P lfa ch ch.ops.m2 (asr x 1))
          (fun x => operatorOut P lfa ch ch.ops.c1 (asr x 1)) (c2Out P lfa noise ch) := by
  cases noise <;> rfl

theorem amOf_eq (lfa : Nat) (ams : BitVec 2) : amOf lfa ams = if ams = 0 then 0 else lfa <<< (ams.toNat - 1) := by
  rw [amOf, Nat.shiftLeft_eq]

/-- An arithmetic shift is a floor division (R8). -/
theorem asr_eq (x : Int) (k : Nat) : asr x k = x / 2 ^ k := by
  simp [asr]

/-- The noise output is twice the inverted envelope, with the sign of bit 16 of the noise register (R205). -/
theorem noiseOut_eq (env : Nat) (rng : BitVec 17) :
    noiseOut env rng = (if rng.getLsbD 16 = true then 1 else -1)
      * (if env < 1023 then ((env ^^^ 1023) * 2 : Nat) else 0 : Int) := by
  unfold noiseOut
  dsimp only
  split
  · exact (Int.one_mul _).symm
  · exact (Int.neg_one_mul _).symm

/-- Settles O30: the parts of the statement are the model's own, and the channel's output is a walk along its bus. -/
theorem channelOutputByAlgorithm : Obligations.ChannelOutputByAlgorithm := by
  intro lfa noise ch am env wave y m1 c2 ch'
  have henv (sl : BitVec 2) : env sl = envOf lfa ch (ch.ops.get sl) := by
    simp only [env, am, ← amOf_eq]; rfl
  have hwave (sl : BitVec 2) (x : Int) : wave sl x = operatorOut params lfa ch (ch.ops.get sl) x := by
    simp only [wave, henv, Nat.shiftRight_eq_div_pow]; rfl
  have hy : y = fun sl x => operatorOut params lfa ch (ch.ops.get sl) (asr x 1) := by
    funext sl x
    simp only [y, hwave, asr_eq]; rfl
  have hc2 : c2 = c2Out params lfa noise ch := by
    funext x
    cases noise with
    | none => exact congrFun (congrFun hy 3) x
    | some rng => simp only [c2, henv]; exact (noiseOut_eq _ rng).symm
  refine ⟨rfl, ?_, ?_⟩
  · rw [hwave, ← asr_eq]; rfl
  · rw [hc2, hy]
    exact (ch.output_eq params lfa noise).trans (Bus.run_eq ..)

end Sys2Proof.Machine

/-! The sample step as a whole (spec/41_fm_generator.md R170, R210, R213; log 7, 8). -/

namespace Sys2Proof.Machine

/-! ### The channels' outputs -/

/-- Each channel's output, with noise on channel 7 alone (R170, R205). -/
theorem Fm.channelOutputs_get_eq (P : Params) (fm : Fm) (c : BitVec 3) :
    (fm.channelOutputs P).get c
      = (fm.chan c).output P fm.lfa (if c = 7 ∧ fm.ne = true then some fm.noiseRng else none) := by
  revert c
  apply forall_channel
  refine ⟨rfl, rfl, rfl, rfl, rfl, rfl, rfl, ?_⟩
  simp only [true_and]
  rfl

/-! ### The mix -/

/-- One side of the mix: the sum of the channels it hears, clamped once (R8, R210). -/
theorem mix_eq (side : Nat) (cs : Octet (Channel × Int)) :
    mix side cs = max (-32768) (min 32767
      (([0, 1, 2, 3, 4, 5, 6, 7] : List (BitVec 3)).map fun c =>
        if (cs.get c).1.rl.getLsbD side = true then (cs.get c).2 else 0).sum) := by
  have hclamp (x : Int) : clamp x (-32768) 32767 = max (-32768) (min 32767 x) := by unfold clamp; omega
  exact hclamp (mixSide side cs)

/-! ### The phases -/

/-- The pitch-modulation offset, an arithmetic shift being a floor division (R8, R213). -/
theorem pmOffset_eq (lfp : Int) (pms : BitVec 3) :
    pmOffset lfp pms = if pms.toNat < 6 then lfp / 2 ^ (6 - pms.toNat) else lfp * 2 ^ (pms.toNat - 5) := by
  simp [pmOffset, asr_eq]

/-- A channel without pitch modulation has the offset 0 (R213). -/
theorem phaseStep_eq (P : Params) (lfp : Int) (ch : Channel) (o : Operator) :
    phaseStep P lfp ch o
      = if (if ch.pms = 0 then 0 else pmOffset lfp ch.pms) = 0 then o.freq
        else P.phaseInc ch.kc ch.kf (if ch.pms = 0 then 0 else pmOffset lfp ch.pms) o.dt1 o.dt2 o.mul := by
  unfold phaseStep
  by_cases hpms : ch.pms = 0
  · simp only [if_pos hpms, if_true]
  · simp only [if_neg hpms]

/-- A channel after its sound: the channel with its output put out, the four phases advanced (R170). -/
theorem Fm.sound_chan (P : Params) (fm : Fm) (c : BitVec 3) :
    (fm.sound P).chan c = { ((fm.channelOutputs P).get c).1 with
      ops := (fm.chan c).ops.map (Operator.phaseAdvance P fm.lfp (fm.chan c)) } := by
  rw [Fm.sound, Fm.chan_onOps, Fm.chan, Octet.get_map, Fm.channelOutputs_get_eq]
  rfl

/-! ### The frame -/

/-- The timers reach neither side of the output. -/
theorem Fm.timers_out (fm : Fm) : fm.timers.outL = fm.outL ∧ fm.timers.outR = fm.outR := by
  rw [Fm.timers_eq]
  exact ⟨rfl, rfl⟩

/-- CSM reaches neither side of the output. -/
theorem Fm.csmStep_out (P : Params) (fm : Fm) : (fm.csmStep P).outL = fm.outL ∧ (fm.csmStep P).outR = fm.outR := by
  unfold Fm.csmStep
  split
  · exact ⟨rfl, rfl⟩
  · split <;> exact ⟨rfl, rfl⟩

/-- The frame of a sample is the mix: CSM and the timers come after it (R170). -/
theorem Fm.advance_out (P : Params) (fm : Fm) :
    (fm.advance P).outL = ((fm.generators P).sound P).outL ∧ (fm.advance P).outR = ((fm.generators P).sound P).outR := by
  obtain ⟨htl, htr⟩ := Fm.timers_out (((fm.generators P).sound P).csmStep P)
  obtain ⟨hcl, hcr⟩ := Fm.csmStep_out P ((fm.generators P).sound P)
  exact ⟨htl.trans hcl, htr.trans hcr⟩

/-- Settles O31: the parts of the sample in their order, each by its own lemma. -/
theorem sampleFrame : Obligations.SampleFrame := by
  intro s
  obtain ⟨hl, hr⟩ := s.fm.advance_out params
  refine ⟨s.advanceSample params, s.fm.generators params, (s.fm.generators params).sound params,
    rfl, rfl, rfl, rfl, hl, hr, rfl, ((s.fm.generators params).channelOutputs params).get,
    Fm.channelOutputs_get_eq _ _, ?_, ?_, fun c => ?_, fun c sl => ?_⟩
  · exact (mix_eq 0 _).trans (by simp only [Fm.channelOutputs_get_eq]; rfl)
  · exact (mix_eq 1 _).trans (by simp only [Fm.channelOutputs_get_eq]; rfl)
  · rw [Fm.sound_chan]
  · rw [Fm.op, Fm.sound_chan, Quad.get_map, Operator.phaseAdvance, phaseStep_eq, pmOffset_eq]
    rfl

end Sys2Proof.Machine

/-! Samples in a row, and the samples of a silenced engine (spec/41_fm_generator.md R170, R196, R405, R411). -/

namespace Sys2Proof.Machine

/-! ### SAMPLE n -/

/-- While the refusal mark is not set, single samples run one after the other make SAMPLE n (R411). -/
theorem runOperations_replicate_sample {s : State} (hm : s.mark = none) (n : Nat) :
    runOperations (List.replicate n .sample) s = .next (State.advanceSamples params n s) := by
  induction n generalizing s with
  | zero => rfl
  | succ n ih => rw [List.replicate_succ, runOperations_cons hm rfl]; exact ih hm

/-- Settles O33: by the runs of single samples, and by the last sample coming after the others. -/
theorem samplesCompose : Obligations.SamplesCompose := by
  intro n s
  refine ⟨State.advanceSamples params n s, rfl, ?_, fun hm => runOperations_replicate_sample hm n, ?_⟩
  · rintro rfl
    rfl
  · exact ⟨_, rfl, congrArg Host.Outcome.next (State.advanceSamples_succ params n s)⟩

/-! ### A silenced channel -/

/-- A total level of `ENV_QUIET` silences an operator, whatever its envelope and the LFO add (R195, R196). -/
theorem operatorOut_eq_zero {P : Params} {o : Operator} (h : 832 ≤ o.tlAtt) (lfa : Nat) (ch : Channel) (x : Int) :
    operatorOut P lfa ch o x = 0 := by
  have henv : ¬ envOf lfa ch o < envQuiet := by unfold envOf envQuiet; omega
  exact if_neg henv

/-- With every operator at 0 the channel is at 0: the delay cell feeds inputs alone (R199). -/
theorem Bus.run_zero (con : BitVec 3) (mem : Int) :
    (Bus.run con mem 0 (fun _ => 0) (fun _ => 0) fun _ => 0).2 = 0 := by
  rw [Bus.run_eq]
  split <;> rfl

/-- No operator of the channel is below `ENV_QUIET`, and no output of M1 is left to deliver (R196, R198). -/
def Channel.Silenced (ch : Channel) : Prop :=
  (∀ sl, 832 ≤ (ch.ops.get sl).tlAtt) ∧ ch.fbCur = 0

/-- A silenced channel stays silenced and puts out 0: nothing reaches the bus, and the delay cell feeds inputs alone. -/
theorem Channel.Silenced.output {ch : Channel} (h : ch.Silenced) (P : Params) (lfa : Nat) :
    (ch.output P lfa none).1.Silenced ∧ (ch.output P lfa none).2 = 0 := by
  obtain ⟨htl, hfb⟩ := h
  have hm2 : 832 ≤ ch.ops.m2.tlAtt := htl 1
  have hc1 : 832 ≤ ch.ops.c1.tlAtt := htl 2
  have hc2 : 832 ≤ ch.ops.c2.tlAtt := htl 3
  refine ⟨⟨htl, operatorOut_eq_zero (htl 0) lfa ch _⟩, ?_⟩
  have hbus := congrArg Prod.snd (ch.output_eq P lfa none)
  have hc2Out : c2Out P lfa none ch = fun _ => 0 := funext fun x => operatorOut_eq_zero hc2 lfa ch _
  simp only [operatorOut_eq_zero hm2, operatorOut_eq_zero hc1, hc2Out, hfb, Bus.run_zero] at hbus
  exact hbus

/-! ### A silenced engine -/

/-- Every channel is silenced and noise does not replace C2 of channel 7 (R405). -/
def Fm.Silenced (fm : Fm) : Prop :=
  (∀ c, (fm.chan c).Silenced) ∧ fm.ne = false

/-- What keeps the channels' feedback and each operator's total level keeps the silence. -/
theorem Fm.Silenced.onOps {fm : Fm} (h : fm.Silenced) {f : Channel → Operator → Operator}
    (hf : ∀ ch o, Operator.SameTuning o (f ch o)) : (fm.onOps f).Silenced := by
  obtain ⟨hch, hne⟩ := h
  refine ⟨fun c => ?_, hne⟩
  obtain ⟨htl, hfb⟩ := hch c
  rw [Fm.chan_onOps]
  refine ⟨fun sl => ?_, hfb⟩
  rw [Quad.get_map, hf]
  exact htl sl

theorem Fm.Silenced.egDivide {fm : Fm} (h : fm.Silenced) (P : Params) : (fm.egDivide P).Silenced := by
  by_cases hdiv : fm.egDiv = 2
  · rw [Fm.egDivide_of_eq hdiv]
    exact Fm.Silenced.onOps (fm := { fm with egDiv := 0, egCnt := fm.egCnt + 1 }) h fun _ o => o.egStep_sameTuning P _
  · rw [Fm.egDivide_of_ne hdiv]
    exact h

theorem Fm.Silenced.csmStep {fm : Fm} (h : fm.Silenced) (P : Params) : (fm.csmStep P).Silenced := by
  unfold Fm.csmStep
  split
  · exact Fm.Silenced.onOps (fm := { fm with csmReq := 1 }) h fun _ o => o.keyOn_sameTuning P _ 2
  · split
    · exact Fm.Silenced.onOps (fm := { fm with csmReq := 0 }) h fun _ o => o.keyOff_sameTuning 2
    · exact h

theorem Fm.Silenced.channelOutputs_get {fm : Fm} (h : fm.Silenced) (P : Params) (c : BitVec 3) :
    ((fm.channelOutputs P).get c).1.Silenced ∧ ((fm.channelOutputs P).get c).2 = 0 := by
  obtain ⟨hch, hne⟩ := h
  rw [Fm.channelOutputs_get_eq, hne, if_neg (by simp)]
  exact (hch c).output P fm.lfa

/-- With every channel at 0 each side mixes to 0 (R210). -/
theorem mix_eq_zero {cs : Octet (Channel × Int)} (h : ∀ c, (cs.get c).2 = 0) (side : Nat) : mix side cs = 0 := by
  rw [mix_eq]
  simp only [h, ite_self]
  rfl

/-- The channels put out 0, the mix is 0, and the phases are no part of the silence. -/
theorem Fm.Silenced.sound {fm : Fm} (h : fm.Silenced) (P : Params) :
    (fm.sound P).Silenced ∧ (fm.sound P).outL = 0 ∧ (fm.sound P).outR = 0 := by
  have hout := h.channelOutputs_get P
  have hmix := mix_eq_zero fun c => (hout c).2
  have hchans : Fm.Silenced { fm with
      chans := (fm.channelOutputs P).map Prod.fst
      outL := mix 0 (fm.channelOutputs P)
      outR := mix 1 (fm.channelOutputs P) } := by
    refine ⟨fun c => ?_, h.2⟩
    rw [Fm.chan, Octet.get_map]
    exact (hout c).1
  exact ⟨hchans.onOps fun ch o => o.phaseAdvance_sameTuning P fm.lfp ch, hmix 0, hmix 1⟩

/-- A sample of a silenced engine puts out 0 on both sides and leaves it silenced. -/
theorem Fm.Silenced.advance {fm : Fm} (h : fm.Silenced) (P : Params) :
    (fm.advance P).Silenced ∧ (fm.advance P).outL = 0 ∧ (fm.advance P).outR = 0 := by
  have hgen : (fm.generators P).Silenced := Fm.Silenced.egDivide (fm := (fm.lfoAdvance P).noiseAdvance P) h P
  obtain ⟨hsound, hl, hr⟩ := hgen.sound P
  have hcsm := hsound.csmStep P
  obtain ⟨hoL, hoR⟩ := fm.advance_out P
  rw [hoL, hoR, Fm.advance, Fm.timers_eq]
  exact ⟨hcsm, hl, hr⟩

/-- The frames of a silenced engine (R405). -/
theorem State.advanceSamples_trace_of_silenced (P : Params) (n : Nat) {s : State} (h : s.fm.Silenced) :
    (State.advanceSamples P n s).trace = s.trace ++ List.replicate n (.frame 0 0) := by
  induction n generalizing s with
  | zero => exact (List.append_nil _).symm
  | succ n ih =>
    obtain ⟨hadv, hl, hr⟩ := h.advance P
    have hnext : (s.advanceSample P).trace = s.trace ++ [.frame 0 0] := by
      rw [State.advanceSample, State.output_trace, State.setFm_trace, hl, hr]
    rw [State.advanceSamples, ih (s := s.advanceSample P) hadv, hnext, List.append_assoc]
    rfl

/-- Settles O34: the engine is silenced, and stays so. -/
theorem silencedFrames : Obligations.SilencedFrames :=
  fun n _ htl hfb hne => ⟨_, rfl, State.advanceSamples_trace_of_silenced params n ⟨fun c => ⟨htl c, hfb c⟩, hne⟩⟩

end Sys2Proof.Machine

/-! The counters of the interval timer: the command port, the loads and the read-backs (spec/42_interval_timer.md R240
to R245; log 12, 29). -/

namespace Sys2Proof.Machine

/-! ### The command port -/

/-- The `sc` field of a counter selects that counter (R105, R240). -/
theorem Pit.onSelected_sc (p : Pit) (n : CounterId) (f : Counter → Counter) :
    p.onSelected n.sc f = p.set n (f (p.get n)) := by
  cases n <;> rfl

theorem exec_outPitLatch (n : CounterId) (s : State) :
    exec (.outPitLatch n.sc) s = .next (s.setPit (s.pit.set n (s.pit.get n).latchNow)) :=
  congrArg (fun p => Host.Outcome.next (s.setPit p)) (s.pit.onSelected_sc n Counter.latchNow)

theorem exec_outPitControl (n : CounterId) (rw : BitVec 2) (mode : BitVec 3) (bcd : Bool) (s : State) :
    exec (.outPitControl n.sc rw mode bcd) s = .next (s.setPit (s.pit.set n ((s.pit.get n).control rw mode bcd))) :=
  congrArg (fun p => Host.Outcome.next (s.setPit p)) (s.pit.onSelected_sc n fun c => c.control rw mode bcd)

/-- Settles O37: each command changes the counter its `sc` field selects. -/
theorem pitCommands : Obligations.PitCommands :=
  fun n rw mode bcd _ s => ⟨exec_outPitLatch n s, fun _ => exec_outPitControl n rw mode bcd s, rfl⟩

/-! ### The counter ports -/

section counter

variable {c : Counter}

theorem Counter.write_of_low (h : c.rw = 1) (v : Byte) :
    c.write v = { c with load := v.setWidth 16, run := v.setWidth 16 } := by
  have hv : 0#8 ++ v = v.setWidth 16 := (BitVec.setWidth_eq_append (by decide : 8 ≤ 16)).symm
  simp [Counter.write, h, hv]

theorem Counter.write_of_high (h : c.rw = 2) (v : Byte) :
    c.write v = { c with load := v.setWidth 16 <<< 8, run := v.setWidth 16 <<< 8 } := by
  have hv : v ++ 0#8 = v.setWidth 16 <<< 8 :=
    (BitVec.append_def v 0#8).trans (by simp [BitVec.shiftLeftZeroExtend_eq])
  simp [Counter.write, h, hv]

theorem Counter.write_of_pair_low (h : c.rw = 3) (hlo : c.wrHi = false) (v : Byte) :
    c.write v = { c with load := highByte c.load ++ v, wrHi := true } := by
  simp [Counter.write, h, hlo]

theorem Counter.write_of_pair_high (h : c.rw = 3) (hhi : c.wrHi = true) (v : Byte) :
    c.write v = { c with load := v ++ lowByte c.load, run := v ++ lowByte c.load, wrHi := false } := by
  simp [Counter.write, h, hhi]

theorem Counter.read_of_low (h : c.rw = 1) (d : Byte) :
    c.read d = (lowByte c.source, { c with latched := false }) := by
  simp [Counter.read, h]

theorem Counter.read_of_high (h : c.rw = 2) (d : Byte) :
    c.read d = (highByte c.source, { c with latched := false }) := by
  simp [Counter.read, h]

theorem Counter.read_of_pair_low (h : c.rw = 3) (hlo : c.rdHi = false) (d : Byte) :
    c.read d = (lowByte c.source, { c with rdHi := true }) := by
  simp [Counter.read, h, hlo]

theorem Counter.read_of_pair_high (h : c.rw = 3) (hhi : c.rdHi = true) (d : Byte) :
    c.read d = (highByte c.source, { c with rdHi := false, latched := false }) := by
  simp [Counter.read, h, hhi]

end counter

theorem exec_writeInstr (n : CounterId) (v : Byte) (s : State) : exec (n.writeInstr v) s = .next (s.pitWrite n v) := by
  cases n <;> rfl

theorem exec_readInstr (n : CounterId) (s : State) : exec n.readInstr s = .next (s.pitRead n) := by
  cases n <;> rfl

/-- Settles O38, by the byte orders of a load. -/
theorem pitCounterWrite : Obligations.PitCounterWrite :=
  fun n v s => ⟨(s.pit.get n).write v, exec_writeInstr n v s, fun h => Counter.write_of_low h v,
    fun h => Counter.write_of_high h v, fun h hlo => Counter.write_of_pair_low h hlo v,
    fun h hhi => Counter.write_of_pair_high h hhi v⟩

/-- Settles O39, by the byte orders of a read-back. -/
theorem pitCounterRead : Obligations.PitCounterRead := by
  intro n s
  refine ⟨((s.pit.get n).read s.drawn).2, ((s.pit.get n).read s.drawn).1, exec_readInstr n s, fun h => ?_, fun h => ?_,
    fun h hlo => ?_, fun h hhi => ?_⟩
  · rw [Counter.read_of_low h]; exact ⟨rfl, rfl⟩
  · rw [Counter.read_of_high h]; exact ⟨rfl, rfl⟩
  · rw [Counter.read_of_pair_low h hlo]; exact ⟨rfl, rfl⟩
  · rw [Counter.read_of_pair_high h hhi]; exact ⟨rfl, rfl⟩

end Sys2Proof.Machine

/-! A tick of the interval timer (spec/42_interval_timer.md R247, R248, spec/44_interrupt_network.md R320, R322; default
PULSE, log 10), and what every step keeps of the timer (R240, R242). -/

namespace Sys2Proof.Machine

/-! ### The output line -/

@[simp] theorem State.driveOut0_pit (s : State) (level : Bool) :
    (s.driveOut0 level).pit = { s.pit with out0 := level } :=
  State.netUpdate_pit _

/-- A level of the output line at the timer status flip-flop (R322). -/
theorem State.driveOut0_net_ts (s : State) (level : Bool) :
    (s.driveOut0 level).net.ts =
      if s.net.tcr.getLsbD 1 then false
      else if !s.net.out0Seen && level && s.net.tcr.getLsbD 0 then true else s.net.ts := by
  rw [State.driveOut0, State.netUpdate_eq]
  rfl

@[simp] theorem State.driveOut0_net_out0Seen (s : State) (level : Bool) : (s.driveOut0 level).net.out0Seen = level := by
  rw [State.driveOut0, State.netUpdate_eq]
  rfl

@[simp] theorem State.driveOut0_net_tcr (s : State) (level : Bool) :
    (s.driveOut0 level).net.tcr = s.net.tcr :=
  State.netUpdate_tcr _

/-- A low-then-high pulse clears the timer status while TC = 1, else sets it while TE = 1 (R247, R322). -/
theorem State.pulse_net_ts (s : State) :
    ((s.driveOut0 false).driveOut0 true).net.ts =
      if s.net.tcr.getLsbD 1 = true then false else if s.net.tcr.getLsbD 0 = true then true else s.net.ts := by
  simp only [State.driveOut0_net_ts, State.driveOut0_net_tcr, State.driveOut0_net_out0Seen]
  cases s.net.tcr.getLsbD 1 <;> simp

/-! ### The tick -/

/-- `t` comes after `s` under the same mark with nothing output but callbacks, and no field of a counter changed but the
running count. -/
def State.TickedTo (s t : State) : Prop :=
  t.mark = s.mark
    ∧ (∀ n, t.pit.get n = { s.pit.get n with run := (t.pit.get n).run })
    ∧ ∃ es, t.trace = s.trace ++ es ∧ ∀ e ∈ es, ∃ l b, e = .callback l b

theorem State.TickedTo.refl (s : State) : s.TickedTo s :=
  ⟨rfl, fun _ => rfl, [], (List.append_nil _).symm, by simp⟩

theorem State.TickedTo.trans {s t u : State} (hst : s.TickedTo t) (htu : t.TickedTo u) : s.TickedTo u := by
  obtain ⟨hmark, hget, es, htrace, hes⟩ := hst
  obtain ⟨hmark', hget', es', htrace', hes'⟩ := htu
  refine ⟨hmark'.trans hmark, fun n => ?_, es ++ es', by rw [htrace', htrace, List.append_assoc], fun e he => ?_⟩
  · rw [hget' n, hget n]
  · exact (List.mem_append.mp he).elim (hes e) (hes' e)

/-- The reports of the network are callbacks (R326). -/
theorem netReports_callback (n : Net) : ∀ e ∈ netReports n, ∃ l b, e = .callback l b := by
  intro e he
  rcases List.mem_append.mp he with he | he
  all_goals
    split at he
    · cases he
    · exact ⟨_, _, List.mem_singleton.mp he⟩

/-- A level of the output line outputs callbacks alone. -/
theorem State.tickedTo_driveOut0 (s : State) (level : Bool) : s.TickedTo (s.driveOut0 level) := by
  rw [State.driveOut0, State.netUpdate_eq]
  exact ⟨rfl, fun n => by cases n <;> rfl, _, rfl, netReports_callback _⟩

theorem State.tickedTo_foldl_driveOut0 (levels : List Bool) (s : State) :
    s.TickedTo (levels.foldl State.driveOut0 s) := by
  induction levels generalizing s with
  | nil => exact .refl s
  | cons l ls ih => exact (s.tickedTo_driveOut0 l).trans (ih _)

/-- A tick outputs callbacks alone and reaches no field of a counter but the running count, for any tick mode (R247 to
R249). -/
theorem State.tickedTo_pitTickWith (m : TickMode) (s : State) : s.TickedTo (s.pitTickWith m) := by
  have hcount (x : Count) : s.TickedTo (s.setPit { s.pit with cnt0 := { s.pit.cnt0 with run := x } }) :=
    ⟨rfl, fun n => by cases n <;> rfl, [], (List.append_nil _).symm, by simp⟩
  exact (hcount _).trans (State.tickedTo_foldl_driveOut0 _ _)

/-- What a tick at count 1 leaves in the timer: the count reloaded, the output high (R247). -/
theorem State.pitTick_pulse_pit {s : State} (h : s.pit.cnt0.run = 1) :
    (State.pitTickWith params.tickMode s).pit
      = { s.pit with cnt0 := { s.pit.cnt0 with run := s.pit.cnt0.load }, out0 := true } := by
  rw [s.pitTick_pulse h, State.driveOut0_pit, State.driveOut0_pit]

/-- What a tick at count 1 leaves in the timer status (R322). -/
theorem State.pitTick_pulse_ts {s : State} (h : s.pit.cnt0.run = 1) :
    (State.pitTickWith params.tickMode s).net.ts =
      if s.net.tcr.getLsbD 1 = true then false else if s.net.tcr.getLsbD 0 = true then true else s.net.ts := by
  rw [s.pitTick_pulse h, State.pulse_net_ts]

/-- Settles O41: the two cases of a tick; a tick reaches no unit but the timer and the network, whose last level is
followed by `NET_UPDATE()`. -/
theorem tickEffect : Obligations.TickEffect := by
  intro s
  refine ⟨fun h => congrArg Host.Outcome.next (s.pitTick_count h), fun h => ?_⟩
  obtain ⟨hframe, htcr⟩ := reaches_timerClock_pitTickWith params.tickMode s
  rw [State.pitTick_pulse_pit h] at hframe
  refine ⟨_, rfl, hframe, htcr, State.pitTick_pulse_ts h, ?_⟩
  rw [s.pitTick_pulse h]
  exact State.netUpdate_netSettled _

/-! ### The invariant -/

theorem Counter.latchNow_rw (c : Counter) : c.latchNow.rw = c.rw := by
  unfold Counter.latchNow
  split <;> rfl

theorem Counter.write_rw (c : Counter) (v : Byte) : (c.write v).rw = c.rw := by
  unfold Counter.write
  split
  · rfl
  · rfl
  · split <;> rfl
  · rfl

theorem Counter.read_rw (c : Counter) (d : Byte) : (c.read d).2.rw = c.rw := by
  unfold Counter.read
  split
  · rfl
  · rfl
  · split <;> rfl
  · rfl

variable {p : Pit}

/-- A counter with a byte order put in the place of another keeps the timer sound. -/
theorem Pit.Sound.set (h : p.Sound) (n : CounterId) {c : Counter} (hc : c.rw ≠ 0) : (p.set n c).Sound := by
  obtain ⟨hrw, hout⟩ := h
  refine ⟨fun n' => ?_, (Pit.set_out0 p n c).trans hout⟩
  by_cases hn : n' = n
  · rw [hn, Pit.get_set]
    exact hc
  · rw [Pit.get_set_ne _ _ hn]
    exact hrw n'

/-- A command keeps the timer sound when it gives the counter it selects a byte order; with `sc` = 3 it selects none. -/
theorem Pit.Sound.onSelected (h : p.Sound) (sc : BitVec 2) {f : Counter → Counter} (hf : ∀ n, (f (p.get n)).rw ≠ 0) :
    (p.onSelected sc f).Sound := by
  unfold Pit.onSelected
  split
  · exact h.set _ (hf _)
  · exact h

/-- A tick leaves every byte order and, by PULSE, the output high (R247). -/
theorem Pit.Sound.pitTick {s : State} (h : s.pit.Sound) : (State.pitTickWith params.tickMode s).pit.Sound := by
  obtain ⟨hrw, hout⟩ := h
  obtain ⟨-, hget, -⟩ := s.tickedTo_pitTickWith params.tickMode
  refine ⟨fun n => ?_, ?_⟩
  · rw [hget n]
    exact hrw n
  · by_cases hone : s.pit.cnt0.run = 1
    · rw [State.pitTick_pulse_pit hone]
    · rw [s.pitTick_count hone]
      exact hout

theorem Pit.reset_sound : Pit.reset.Sound :=
  ⟨fun n => by cases n <;> decide, rfl⟩

/-- Every shared operation of a well-formed row keeps the timer sound, at the default configuration fields. -/
theorem Moves.pitSound {s t : State} (hm : Moves params true s t) (h : s.pit.Sound) : t.pit.Sound := by
  cases hm with
  | same | fm | output | draw | refuse => exact h
  | latch sc => exact h.onSelected sc fun n => by rw [Counter.latchNow_rw]; exact h.1 n
  | control sc rw mode bcd hrw => exact h.onSelected sc fun _ => hrw rfl
  | pitWrite n v => exact h.set n (by rw [Counter.write_rw]; exact h.1 n)
  | pitRead n => exact h.set n (by rw [Counter.read_rw]; exact h.1 n)
  | tick => exact h.pitTick
  | piuWrite => rw [State.piuWrite_pit]; exact h
  | piuRead => rw [State.piuRead_pit]; exact h
  | midiFeed => rw [State.midiFeedWith_eq, State.setMpc_pit]; exact h
  | samples n => rw [reaches_audioPull_advanceSamples params n s]; exact h
  | piuWriteC | piuSetMode | piuBitSet | writeTcr | setFlow =>
    simpa [State.piuWriteC, State.piuSetMode, State.piuBitSet, State.writeTcr, State.setFlow] using h
  | reset => exact Pit.reset_sound

/-- Settles O12: a step does nothing or makes the move of a well-formed row. -/
theorem timerInvariantKept : Obligations.TimerInvariantKept := by
  intro s t hs h
  rcases step_next h with ⟨-, rfl⟩ | ⟨a, rest, i, -, hd, he⟩
  · exact hs
  · have hm := exec_moves he
    rw [decode_wellFormed hd] at hm
    exact hm.pitSound hs

end Sys2Proof.Machine

/-! Ticks of the interval timer in a row: the period of counter 0 and the latched read-back (spec/42_interval_timer.md
R245, R247, R403; default PULSE, log 10). -/

namespace Sys2Proof.Machine

/-! ### Runs of ticks -/

/-- The state after `k` ticks. -/
def State.ticks (k : Nat) (s : State) : State :=
  (State.pitTickWith params.tickMode)^[k] s

theorem State.ticks_succ (k : Nat) (s : State) :
    s.ticks (k + 1) = State.pitTickWith params.tickMode (s.ticks k) :=
  Function.iterate_succ_apply' ..

/-- While the refusal mark is not set, ticks run one after the other. -/
theorem runOperations_replicate_tick {s : State} (hm : s.mark = none) (k : Nat) :
    runOperations (List.replicate k .tick) s = .next (s.ticks k) := by
  induction k generalizing s with
  | zero => rfl
  | succ k ih =>
    rw [List.replicate_succ, runOperations_cons hm rfl]
    obtain ⟨hmark, -⟩ := s.tickedTo_pitTickWith params.tickMode
    exact ih (hmark.trans hm)

/-! ### The period of counter 0 -/

/-- The number of ticks for which a count runs: the count, and 65536 for a count of 0 (R247). -/
def ticksOf (c : Count) : Nat :=
  if c = 0 then 65536 else c.toNat

theorem ticksOf_bounds (c : Count) : 1 ≤ ticksOf c ∧ ticksOf c ≤ 65536 := by
  unfold ticksOf
  split
  · decide
  · next h => bv_omega

theorem ofNat_ticksOf (c : Count) : BitVec.ofNat 16 (ticksOf c) = c := by
  unfold ticksOf
  split
  · next h => exact h.symm
  · simp

/-- Before the count has run out, `k` ticks take `k` from it and change nothing else (R247). -/
theorem State.ticks_of_lt (s : State) {k : Nat} (hk : k < ticksOf s.pit.cnt0.run) :
    s.ticks k = { s with pit := { s.pit with cnt0 := { s.pit.cnt0 with
      run := BitVec.ofNat 16 (ticksOf s.pit.cnt0.run - k) } } } := by
  induction k with
  | zero => rw [Nat.sub_zero, ofNat_ticksOf]; rfl
  | succ k ih =>
    obtain ⟨-, hle⟩ := ticksOf_bounds s.pit.cnt0.run
    have hnext : BitVec.ofNat 16 (ticksOf s.pit.cnt0.run - k) - 1
        = BitVec.ofNat 16 (ticksOf s.pit.cnt0.run - (k + 1)) := by bv_omega
    have hone : BitVec.ofNat 16 (ticksOf s.pit.cnt0.run - k) ≠ 1 := by bv_omega
    rw [State.ticks_succ, ih (by omega), State.pitTick_count _ hone, hnext]

/-- The last tick of a count comes at 1. -/
theorem State.ticks_ticksOf (s : State) :
    s.ticks (ticksOf s.pit.cnt0.run)
      = State.pitTickWith params.tickMode
          { s with pit := { s.pit with cnt0 := { s.pit.cnt0 with run := 1 } } } := by
  obtain ⟨hpos, -⟩ := ticksOf_bounds s.pit.cnt0.run
  obtain ⟨k, hk⟩ := Nat.exists_eq_add_of_le' hpos
  rw [hk, State.ticks_succ, s.ticks_of_lt (by omega), hk, Nat.add_sub_cancel_left]
  rfl

/-- Settles O42: the ticks of the load count, and the last one pulses. -/
theorem timerPeriod : Obligations.TimerPeriod := by
  intro s n hm hload hn
  rw [← hload] at hn
  subst hn
  refine ⟨fun k hk => (runOperations_replicate_tick hm k).trans (congrArg _ (s.ticks_of_lt hk)),
    _, runOperations_replicate_tick hm _, ?_, ?_⟩
  · refine (congrArg State.pit s.ticks_ticksOf).trans ?_
    rw [State.pitTick_pulse_pit rfl, ← hload]
  · refine (congrArg (fun t => t.net.ts) s.ticks_ticksOf).trans ?_
    exact State.pitTick_pulse_ts rfl

/-! ### The latched read-back -/

theorem State.tickedTo_ticks (k : Nat) (s : State) : s.TickedTo (s.ticks k) := by
  induction k with
  | zero => exact .refl s
  | succ k ih =>
    rw [State.ticks_succ]
    exact ih.trans (State.tickedTo_pitTickWith _ _)

theorem Counter.source_of_latched {c : Counter} (h : c.latched = true) : c.source = c.latch :=
  if_pos h

section latched

variable {n : CounterId} {s : State} (hrw : (s.pit.get n).rw = 3) (hlatched : (s.pit.get n).latched = true)

include hrw hlatched

/-- The first read-back of a latched counter outputs the latch's low byte (R245). -/
theorem State.pitRead_latched_low (hlo : (s.pit.get n).rdHi = false) :
    (s.pitRead n).trace = s.trace ++ [.portRead n.offset (lowByte (s.pit.get n).latch)]
      ∧ (s.pitRead n).pit.get n = { s.pit.get n with rdHi := true } := by
  rw [State.pitRead, Counter.read_of_pair_low hrw hlo, Counter.source_of_latched hlatched]
  exact ⟨rfl, Pit.get_set ..⟩

/-- The second one outputs its high byte and releases it (R245). -/
theorem State.pitRead_latched_high (hhi : (s.pit.get n).rdHi = true) :
    (s.pitRead n).trace = s.trace ++ [.portRead n.offset (highByte (s.pit.get n).latch)]
      ∧ ((s.pitRead n).pit.get n).latched = false := by
  rw [State.pitRead, Counter.read_of_pair_high hrw hhi, Counter.source_of_latched hlatched]
  exact ⟨rfl, congrArg Counter.latched (Pit.get_set ..)⟩

/-- Two read-backs of a latched counter whose low byte is next output the latch and release it (R245). -/
theorem runOperations_two_reads (hm : s.mark = none) (hlo : (s.pit.get n).rdHi = false) :
    ∃ t, runOperations [n.readInstr, n.readInstr] s = .next t
      ∧ t.trace = s.trace ++ [.portRead n.offset (lowByte (s.pit.get n).latch),
          .portRead n.offset (highByte (s.pit.get n).latch)]
      ∧ (t.pit.get n).latched = false := by
  obtain ⟨hlow, hget⟩ := State.pitRead_latched_low hrw hlatched hlo
  obtain ⟨hhigh, hreleased⟩ := State.pitRead_latched_high (s := s.pitRead n)
    (by rw [hget]; exact hrw) (by rw [hget]; exact hlatched) (by rw [hget])
  refine ⟨(s.pitRead n).pitRead n, ?_, ?_, hreleased⟩
  · rw [runOperations_cons hm (exec_readInstr n s)]
    exact runOperations_cons (s := s.pitRead n) hm (exec_readInstr n _)
  · rw [hhigh, hlow, hget, List.append_assoc]
    rfl

/-- Ticks before the two read-backs keep the latch and the read toggle, and output callbacks alone (R403). -/
theorem runOperations_ticks_two_reads (hm : s.mark = none) (hlo : (s.pit.get n).rdHi = false) (k : Nat) :
    ∃ t es, runOperations (List.replicate k .tick ++ [n.readInstr, n.readInstr]) s = .next t
      ∧ t.trace = s.trace ++ es ++ [.portRead n.offset (lowByte (s.pit.get n).latch),
          .portRead n.offset (highByte (s.pit.get n).latch)]
      ∧ (∀ e ∈ es, ∃ l b, e = .callback l b)
      ∧ (t.pit.get n).latched = false := by
  obtain ⟨hmark, hget, es, htrace, hes⟩ := s.tickedTo_ticks k
  have hk := hget n
  obtain ⟨t, hrun, hread, hreleased⟩ := runOperations_two_reads (n := n) (s := s.ticks k)
    (by rw [hk]; exact hrw) (by rw [hk]; exact hlatched) (hmark.trans hm) (by rw [hk]; exact hlo)
  refine ⟨t, es, (runOperations_append (runOperations_replicate_tick hm k)).trans hrun, ?_, hes, hreleased⟩
  rw [hread, htrace, hk]

end latched

theorem Counter.latchNow_of_free {c : Counter} (h : c.latched = false) :
    c.latchNow = { c with latch := c.run, latched := true, rdHi := false } := by
  simp [Counter.latchNow, h]

/-- Settles O40: the latch command fills the latch with the count and makes the low byte the next. -/
theorem latchedReadBack : Obligations.LatchedReadBack := by
  intro n k s hm hrw hfree
  have hget : (s.setPit (s.pit.set n (s.pit.get n).latchNow)).pit.get n
      = { s.pit.get n with latch := (s.pit.get n).run, latched := true, rdHi := false } :=
    (Pit.get_set ..).trans (Counter.latchNow_of_free hfree)
  have hreads := runOperations_ticks_two_reads (n := n) (s := s.setPit (s.pit.set n (s.pit.get n).latchNow))
    (by rw [hget]; exact hrw) (by rw [hget]) hm (by rw [hget]) k
  rw [hget] at hreads
  rw [List.cons_append, runOperations_cons hm (exec_outPitLatch n s)]
  exact hreads

end Sys2Proof.Machine

/-! The block after reset (spec/70_reset_and_hazards.md R392): silent frames, and ticks that lead back to reset
(spec/42_interval_timer.md R247; default PULSE, log 10). -/

namespace Sys2Proof.Machine

/-! ### An operator that is off -/

/-- OFF at a level of `ENV_QUIET` or more (R189, R196). -/
def Operator.Idle (o : Operator) : Prop :=
  o.eg = .off ∧ 832 ≤ o.att

variable {P : Params}

theorem Operator.Idle.out_eq_zero {o : Operator} (h : o.Idle) (lfa : Nat) (ch : Channel) (x : Int) :
    operatorOut P lfa ch o x = 0 := by
  obtain ⟨-, hatt⟩ := h
  have henv : ¬ envOf lfa ch o < envQuiet := by unfold envOf envQuiet; omega
  exact if_neg henv

/-- An envelope step leaves an operator that is OFF (R189). -/
theorem Operator.Idle.egStep {o : Operator} (h : o.Idle) (cnt : BitVec 32) : (o.egStep P cnt).Idle := by
  rw [Operator.egStep, h.1]
  exact h

/-! ### A channel with no operator on -/

/-- Every operator is idle and no output of M1 is left to deliver (R198). -/
def Channel.Idle (ch : Channel) : Prop :=
  (∀ sl, (ch.ops.get sl).Idle) ∧ ch.fbCur = 0

/-- An idle channel stays idle and puts out 0: nothing reaches the bus, and the delay cell feeds inputs alone (R199). -/
theorem Channel.Idle.output {ch : Channel} (h : ch.Idle) (P : Params) (lfa : Nat) :
    (ch.output P lfa none).1.Idle ∧ (ch.output P lfa none).2 = 0 := by
  obtain ⟨hops, hfb⟩ := h
  have hout (sl : BitVec 2) (x : Int) : operatorOut P lfa ch (ch.ops.get sl) x = 0 := (hops sl).out_eq_zero lfa ch x
  refine ⟨⟨hops, hout 0 _⟩, ?_⟩
  have hm2 (x : Int) : operatorOut P lfa ch ch.ops.m2 x = 0 := hout 1 x
  have hc1 (x : Int) : operatorOut P lfa ch ch.ops.c1 x = 0 := hout 2 x
  have hc2 : c2Out P lfa none ch = fun _ => 0 := funext fun _ => hout 3 _
  have hbus := congrArg Prod.snd (ch.output_eq P lfa none)
  simp only [hm2, hc1, hc2, hfb, Bus.run_zero] at hbus
  exact hbus

/-! ### An engine with no operator on -/

/-- Every channel is idle, noise does not replace C2 of channel 7 (R205), and CSM keys nothing on (R220, R223). -/
def Fm.Idle (fm : Fm) : Prop :=
  (∀ c, (fm.chan c).Idle) ∧ fm.ne = false ∧ fm.csm = false ∧ fm.csmReq = 0

theorem Fm.Idle.onOps {fm : Fm} (h : fm.Idle) {f : Channel → Operator → Operator}
    (hf : ∀ ch o, Operator.Idle o → (f ch o).Idle) : (fm.onOps f).Idle := by
  obtain ⟨hch, hrest⟩ := h
  refine ⟨fun c => ?_, hrest⟩
  obtain ⟨hops, hfb⟩ := hch c
  rw [Fm.chan_onOps]
  refine ⟨fun sl => ?_, hfb⟩
  rw [Quad.get_map]
  exact hf _ _ (hops sl)

theorem Fm.Idle.egDivide {fm : Fm} (h : fm.Idle) : (fm.egDivide P).Idle := by
  by_cases hdiv : fm.egDiv = 2
  · rw [Fm.egDivide_of_eq hdiv]
    exact Fm.Idle.onOps (fm := { fm with egDiv := 0, egCnt := fm.egCnt + 1 }) h fun _ _ ho => ho.egStep _
  · rw [Fm.egDivide_of_ne hdiv]
    exact h

theorem Fm.Idle.channelOutputs_get {fm : Fm} (h : fm.Idle) (P : Params) (c : BitVec 3) :
    ((fm.channelOutputs P).get c).1.Idle ∧ ((fm.channelOutputs P).get c).2 = 0 := by
  obtain ⟨hch, hne, -⟩ := h
  rw [Fm.channelOutputs_get_eq, hne, if_neg (by simp)]
  exact (hch c).output P fm.lfa

/-- The channels put out 0, the mix is 0, and the phases are no part of the silence. -/
theorem Fm.Idle.sound {fm : Fm} (h : fm.Idle) (P : Params) :
    (fm.sound P).Idle ∧ (fm.sound P).outL = 0 ∧ (fm.sound P).outR = 0 := by
  have hout := h.channelOutputs_get P
  have hmix := mix_eq_zero fun c => (hout c).2
  obtain ⟨hch, hrest⟩ := h
  refine ⟨⟨fun c => ?_, hrest⟩, hmix 0, hmix 1⟩
  obtain ⟨⟨-, hfb⟩, -⟩ := hout c
  obtain ⟨hops, -⟩ := hch c
  rw [Fm.sound_chan]
  refine ⟨fun sl => ?_, hfb⟩
  rw [Quad.get_map]
  exact hops sl

theorem Fm.timerA_csmReq {fm : Fm} (h : fm.csm = false) : fm.timerA.csmReq = fm.csmReq := by
  unfold Fm.timerA
  split
  · split
    · simp [h]
    · rfl
  · rfl

theorem Fm.Idle.timers {fm : Fm} (h : fm.Idle) : fm.timers.Idle := by
  obtain ⟨hch, hne, hcsm, hreq⟩ := h
  rw [Fm.timers_eq]
  exact ⟨hch, hne, hcsm, (Fm.timerA_csmReq hcsm).trans hreq⟩

/-- A sample of an idle engine puts out 0 on both sides and leaves it idle. -/
theorem Fm.Idle.advance {fm : Fm} (h : fm.Idle) (P : Params) :
    (fm.advance P).Idle ∧ (fm.advance P).outL = 0 ∧ (fm.advance P).outR = 0 := by
  have hgen : (fm.generators P).Idle := Fm.Idle.egDivide (fm := (fm.lfoAdvance P).noiseAdvance P) h
  obtain ⟨hsound, hl, hr⟩ := hgen.sound P
  have ⟨_, _, _, hreq⟩ := hsound
  obtain ⟨hoL, hoR⟩ := fm.advance_out P
  refine ⟨?_, hoL.trans hl, hoR.trans hr⟩
  rw [Fm.advance, Fm.csmStep_of_zero hreq]
  exact hsound.timers

/-- The frames of an idle engine. -/
theorem State.advanceSamples_trace_of_idle (P : Params) (n : Nat) {s : State} (h : s.fm.Idle) :
    (State.advanceSamples P n s).trace = s.trace ++ List.replicate n (.frame 0 0) := by
  induction n generalizing s with
  | zero => exact (List.append_nil _).symm
  | succ n ih =>
    obtain ⟨hadv, hl, hr⟩ := h.advance P
    have hnext : (s.advanceSample P).trace = s.trace ++ [.frame 0 0] := by
      rw [State.advanceSample, State.output_trace, State.setFm_trace, hl, hr]
    rw [State.advanceSamples, ih (s := s.advanceSample P) hadv, hnext, List.append_assoc]
    rfl

/-- After reset no operator is on (R390, R391). -/
theorem Fm.reset_idle : Fm.reset.Idle := by
  have hop : Operator.reset.Idle := ⟨rfl, by decide⟩
  refine ⟨fun c => ?_, rfl, rfl, rfl⟩
  rw [Fm.chan_reset]
  exact ⟨forall_slot (P := fun sl => (Channel.reset.ops.get sl).Idle) ⟨hop, hop, hop, hop⟩, rfl⟩

/-! ### The timer from reset -/

/-- The pulse that ends the count after reset leaves no trace: TE is 0, so no status is set and no line moves (R322 to
R326). -/
theorem State.ticks_reset_period : State.reset.ticks 65536 = State.reset := by
  refine State.reset.ticks_ticksOf.trans ?_
  rw [State.pitTick_pulse _ rfl, State.driveOut0, State.driveOut0, State.netUpdate_eq, State.netUpdate_eq]
  rfl

/-- Settles O35: an idle engine, and the period of a count of 0. -/
theorem quietAfterReset : Obligations.QuietAfterReset := by
  refine ⟨fun n => ⟨_, rfl, State.advanceSamples_trace_of_idle params n Fm.reset_idle⟩, fun n _ hn => ?_, ?_⟩
  · exact (runOperations_replicate_tick rfl n).trans
      (congrArg Host.Outcome.next (State.reset.ticks_of_lt (Nat.lt_succ_of_le hn)))
  · exact (runOperations_replicate_tick rfl 65536).trans (congrArg Host.Outcome.next State.ticks_reset_period)

end Sys2Proof.Machine

/-! The handshake and the network at rest after every step (spec/43_piu.md R290, R291, spec/44_interrupt_network.md R320
to R326), with the default configuration fields. -/

namespace Sys2Proof.Machine

/-- Settles O11: `step` is the step of the default configuration fields, and the step of any fields keeps the block
settled. -/
theorem handshakeAndNetworkStaySettled : Obligations.HandshakeAndNetworkStaySettled :=
  fun s _ hpair hnet h => stepWith_keeps_settled ⟨hpair, hnet⟩ (step_eq_stepWith s ▸ h)

end Sys2Proof.Machine

/-! `PIU_UPDATE`, the mode words and the data ports of the parallel interface (spec/43_piu.md R276 to R281, R290). -/

namespace Sys2Proof.Machine

/-! ### The propagation and the mode words -/

/-- `PIU_UPDATE()` reaches the two units and the network's levels alone, and outputs only the network's reports (R290,
R326). -/
theorem State.piuUpdate_piuFrame (s : State) : PiuFrame s s.piuUpdate := by
  rw [State.piuUpdate_eq, State.netUpdate_eq]
  exact ⟨rfl, rfl, _, rfl, netReports_callback _⟩

theorem State.piuUpdate_atRest (s : State) : HandshakeAtRest s.piuUpdate.piuH s.piuUpdate.piuF := by
  rw [State.piuUpdate_piuH, State.piuUpdate_piuF]
  exact piuSettle_atRest s.piuH s.piuF

theorem State.piuUpdate_sameProgrammed (s : State) :
    s.piuH.SameProgrammed s.piuUpdate.piuH ∧ s.piuF.SameProgrammed s.piuUpdate.piuF := by
  rw [State.piuUpdate_piuH, State.piuUpdate_piuF]
  exact piuSettle_sameProgrammed s.piuH s.piuF

/-- Settles O45: the closed form of the handshake is at its fixed point, and `PIU_UPDATE()` ends in `NET_UPDATE()`. -/
theorem piuUpdateReachesFixedPoint : Obligations.PiuUpdateReachesFixedPoint := by
  intro s
  obtain ⟨hH, hF⟩ := s.piuUpdate_sameProgrammed
  exact ⟨s.piuUpdate_atRest, State.netUpdate_netSettled _, hH, hF, s.piuUpdate_piuFrame⟩

theorem exec_modeInstr (q : PiuId) (m : ModeWord) (s : State) :
    exec (modeInstr q m) s = .next (s.setPiu q ((s.piu q).setMode m)).piuUpdate := by
  cases q <;> rfl

/-- Settles O44: a plain mode word is `Piu.setMode` and the propagation, a bidirectional one the refusal. -/
theorem piuModeWords : Obligations.PiuModeWords :=
  ⟨fun q m s _ => exec_modeInstr q m s, fun _ _ => ⟨rfl, rfl⟩⟩

/-! ### The data ports -/

section ports

variable {s : State} {q : PiuId} {x : Port}

theorem exec_portWriteInstr (q : PiuId) (x : Port) (v : Byte) (s : State) :
    exec (portWriteInstr q x v) s = .next (s.piuWrite q x v) := by
  cases q <;> cases x <;> rfl

theorem exec_portReadInstr (q : PiuId) (x : Port) (s : State) :
    exec (portReadInstr q x) s = .next (s.piuRead q x) := by
  cases q <;> cases x <;> rfl

theorem Piu.strobedIn_iff {p : Piu} : p.strobedIn x = true ↔ p.strobed x = true ∧ p.dir x = true := by
  simp [Piu.strobedIn]

theorem Piu.strobedOut_iff {p : Piu} : p.strobedOut x = true ↔ p.strobed x = true ∧ p.dir x = false := by
  simp [Piu.strobedOut]

theorem State.piuWrite_of_strobedIn (h : (s.piu q).strobedIn x = true) (v : Byte) : s.piuWrite q x v = s :=
  if_pos h

theorem State.piuWrite_of_not_strobedIn (h : ¬ (s.piu q).strobedIn x = true) (v : Byte) :
    s.piuWrite q x v = (s.setPiu q ((s.piu q).writeData x v)).piuUpdate :=
  if_neg h

theorem State.piuWrite_of_strobedOut (h : (s.piu q).strobedOut x = true) (v : Byte) :
    s.piuWrite q x v = (s.setPiu q (((s.piu q).setOut x v).setObf x true)).piuUpdate := by
  obtain ⟨hstrobed, hdir⟩ := Piu.strobedOut_iff.mp h
  have hin : ¬ (s.piu q).strobedIn x = true := fun hin => by simp [Piu.strobedIn_iff, hdir] at hin
  rw [State.piuWrite_of_not_strobedIn hin, Piu.writeData, if_pos hstrobed]

theorem State.piuWrite_of_basic (h : ¬ (s.piu q).strobed x = true) (v : Byte) :
    s.piuWrite q x v = (s.setPiu q ((s.piu q).setOut x v)).piuUpdate := by
  rw [State.piuWrite_of_not_strobedIn (fun hin => h (Piu.strobedIn_iff.mp hin).1), Piu.writeData, if_neg h]

theorem State.piuRead_of_strobedIn (h : (s.piu q).strobedIn x = true) :
    s.piuRead q x
      = (s.setPiu q ((s.piu q).setIbf x false)).piuUpdate.output (portEvent q x ((s.piu q).inp x)) :=
  if_pos h

theorem State.piuRead_of_dir_out (h : (s.piu q).dir x = false) :
    s.piuRead q x = s.output (portEvent q x ((s.piu q).out x)) := by
  simp [State.piuRead, State.piuReadPlain, Piu.strobedIn, h]

theorem State.piuRead_of_basic_in (hdir : (s.piu q).dir x = true) (hbasic : ¬ (s.piu q).strobed x = true) :
    s.piuRead q x
      = if (s.piu q.other).drives x then s.output (portEvent q x ((s.piu q.other).out x))
        else s.takeDraw.output (portEvent q x s.drawn) := by
  simp [State.piuRead, State.piuReadPlain, Piu.strobedIn, hdir, hbasic]

end ports

/-- Settles O47: a port in strobed mode is an input or an output, and else it is in basic mode. -/
theorem dataPortWrite : Obligations.DataPortWrite := by
  intro q x v s strobedMode
  have hmode : strobedMode ↔ (s.piu q).strobed x = true := by
    cases x
    · exact beq_iff_eq.symm
    · exact Iff.rfl
  rw [hmode, exec_portWriteInstr]
  refine ⟨fun hs hdir => ?_, fun hs hdir => ?_, fun hs => ?_⟩
  · rw [State.piuWrite_of_strobedIn (Piu.strobedIn_iff.mpr ⟨hs, hdir⟩)]
  · rw [State.piuWrite_of_strobedOut (Piu.strobedOut_iff.mpr ⟨hs, hdir⟩)]
  · rw [State.piuWrite_of_basic hs]

/-- Settles O48: strobed input mode, an output, an input the counterpart drives, and an undriven input. -/
theorem dataPortRead : Obligations.DataPortRead := by
  intro q x s strobedMode otherDrives
  have hmode : strobedMode ↔ (s.piu q).strobed x = true := by
    cases x
    · exact beq_iff_eq.symm
    · exact Iff.rfl
  have hdrives : otherDrives ↔ (s.piu q.other).drives x = true := by
    cases x <;> simp [otherDrives, Piu.drives, Piu.basicOrStrobed]
  rw [hmode, hdrives, exec_portReadInstr]
  refine ⟨fun ⟨hs, hdir⟩ => ?_, fun hdir => ?_, fun hdir hs ho => ?_, fun hdir hs ho => ?_⟩
  · rw [State.piuRead_of_strobedIn (Piu.strobedIn_iff.mpr ⟨hs, hdir⟩)]
    exact ⟨_, rfl, rfl, rfl⟩
  · rw [State.piuRead_of_dir_out hdir]
    rfl
  · rw [State.piuRead_of_basic_in hdir hs, if_pos ho]
    rfl
  · rw [State.piuRead_of_basic_in hdir hs, if_neg ho]
    rfl

end Sys2Proof.Machine

/-! The phases of the handshake on one port (spec/43_piu.md R295, R296), for either direction: port A sends from H to F,
port B from F to H (R270). -/

namespace Sys2Proof.Machine

/-- The unit that a port's handshake lines make the sender (R270). -/
def Port.sender : Port → PiuId
  | .a => .h
  | .b => .f

/-- The unit that a port's handshake lines make the receiver (R270). -/
abbrev Port.receiver (x : Port) : PiuId :=
  x.sender.other

/-- Both ends of port `x` are in its matching strobed modes (R271). -/
def State.Linked (s : State) (x : Port) : Prop :=
  linkActive s.piuH s.piuF x = true

theorem State.linked_iff {s : State} {x : Port} :
    s.Linked x ↔ (s.piu x.sender).strobedOut x = true ∧ (s.piu x.receiver).strobedIn x = true := by
  cases x <;> exact Bool.and_eq_true_iff

theorem State.Linked.linkActive {s : State} {x : Port} (h : s.Linked x) : linkActive s.piuH s.piuF x = true :=
  h

/-- The acknowledged phase of R295: the receiver holds the byte, and its request alone is up to its enable. -/
structure State.Acknowledged (s : State) (x : Port) (v : Byte) : Prop where
  inp : (s.piu x.receiver).inp x = v
  ibf : (s.piu x.receiver).ibf x = true
  obf : (s.piu x.sender).obf x = false
  sender_intr : (s.piu x.sender).intr x = false
  receiver_intr : (s.piu x.receiver).intr x = (s.piu x.receiver).inte x

/-- The ready phase of R295 after a read: both buffers are empty, and the sender's request alone is up to its enable. -/
structure State.Ready (s : State) (x : Port) : Prop where
  ibf : (s.piu x.receiver).ibf x = false
  obf : (s.piu x.sender).obf x = false
  receiver_intr : (s.piu x.receiver).intr x = false
  sender_intr : (s.piu x.sender).intr x = (s.piu x.sender).inte x

/-- A byte waits at the sender of a port that is not linked (R296). -/
structure State.Waiting (s : State) (x : Port) (v : Byte) : Prop where
  strobedOut : (s.piu x.sender).strobedOut x = true
  unlinked : ¬ s.Linked x
  atRest : HandshakeAtRest s.piuH s.piuF
  obf : (s.piu x.sender).obf x = true
  out : (s.piu x.sender).out x = v

/-! ### Updates of a unit -/

section fields

variable (p : Piu) (x : Port) (v : Byte) (b : Bool)

@[simp] theorem Piu.setOut_strobedOut : (p.setOut x v).strobedOut x = p.strobedOut x := by cases x <;> rfl
@[simp] theorem Piu.setOut_inte : (p.setOut x v).inte x = p.inte x := by cases x <;> rfl
@[simp] theorem Piu.setOut_ackIn : (p.setOut x v).ackIn x = p.ackIn x := by cases x <;> rfl
@[simp] theorem Piu.setOut_out : (p.setOut x v).out x = v := by cases x <;> rfl

@[simp] theorem Piu.setObf_strobedOut : (p.setObf x b).strobedOut x = p.strobedOut x := by cases x <;> rfl
@[simp] theorem Piu.setObf_inte : (p.setObf x b).inte x = p.inte x := by cases x <;> rfl
@[simp] theorem Piu.setObf_ackIn : (p.setObf x b).ackIn x = p.ackIn x := by cases x <;> rfl
@[simp] theorem Piu.setObf_out : (p.setObf x b).out x = p.out x := by cases x <;> rfl
@[simp] theorem Piu.setObf_obf : (p.setObf x b).obf x = b := by cases x <;> rfl

@[simp] theorem Piu.setIbf_strobedIn : (p.setIbf x b).strobedIn x = p.strobedIn x := by cases x <;> rfl
@[simp] theorem Piu.setIbf_inte : (p.setIbf x b).inte x = p.inte x := by cases x <;> rfl
@[simp] theorem Piu.setIbf_ibf : (p.setIbf x b).ibf x = b := by cases x <;> rfl

variable (m : ModeWord)

@[simp] theorem Piu.setMode_stbIn : (p.setMode m).stbIn x = p.stbIn x := by cases x <;> rfl
@[simp] theorem Piu.setMode_obf : (p.setMode m).obf x = false := by cases x <;> rfl
@[simp] theorem Piu.setMode_out : (p.setMode m).out x = 0 := by cases x <;> rfl

@[simp] theorem State.piu_setPiu_of_other (s : State) (q : PiuId) : (s.setPiu q.other p).piu q = s.piu q := by
  cases q <;> rfl

end fields

/-! ### What `PIU_UPDATE()` does on one port -/

section update

variable {s : State} {x : Port}

@[simp] theorem State.piuUpdate_out (s : State) (q : PiuId) (x : Port) :
    (s.piuUpdate.piu q).out x = (s.piu q).out x := by
  cases q <;> cases x <;> simp [piuSettle_eq] <;> rfl

@[simp] theorem State.piuUpdate_inte (s : State) (q : PiuId) (x : Port) :
    (s.piuUpdate.piu q).inte x = (s.piu q).inte x := by
  cases q <;> cases x <;> simp [piuSettle_eq] <;> rfl

@[simp] theorem State.piuUpdate_strobedOut (s : State) (q : PiuId) (x : Port) :
    (s.piuUpdate.piu q).strobedOut x = (s.piu q).strobedOut x := by
  cases q <;> cases x <;> simp [piuSettle_eq] <;> rfl

@[simp] theorem State.piuUpdate_strobedIn (s : State) (q : PiuId) (x : Port) :
    (s.piuUpdate.piu q).strobedIn x = (s.piu q).strobedIn x := by
  cases q <;> cases x <;> simp [piuSettle_eq] <;> rfl

/-- The strobe of a port's direction (R271). -/
theorem strobe_receiver (s : State) (x : Port) :
    strobe s.piuH s.piuF x.receiver x = (linkActive s.piuH s.piuF x && (s.piu x.sender).obf x) := by
  cases x <;> rfl

/-- The acknowledge of a port's direction (R271). -/
theorem acknowledge_sender (s : State) (x : Port) :
    acknowledge s.piuH s.piuF x.sender x = (linkActive s.piuH s.piuF x && (s.piu x.receiver).ibf x) := by
  cases x <;> rfl

theorem delivered_eq (s : State) (x : Port) :
    delivered s.piuH s.piuF x
      = (linkActive s.piuH s.piuF x && (s.piu x.sender).obf x && !(s.piu x.receiver).stbIn x) := by
  cases x <;> rfl

theorem HandshakeAtRest.stbIn (h : HandshakeAtRest s.piuH s.piuF) (x : Port) :
    (s.piu x.receiver).stbIn x = (linkActive s.piuH s.piuF x && (s.piu x.sender).obf x) := by
  rw [← strobe_receiver]
  obtain ⟨⟨hA, -, hB, -⟩, -⟩ := h
  cases x
  · exact hA
  · exact hB

theorem HandshakeAtRest.ackIn (h : HandshakeAtRest s.piuH s.piuF) (x : Port) :
    (s.piu x.sender).ackIn x = (linkActive s.piuH s.piuF x && (s.piu x.receiver).ibf x) := by
  rw [← acknowledge_sender]
  obtain ⟨⟨-, hA, -, hB⟩, -⟩ := h
  cases x
  · exact hA
  · exact hB

theorem HandshakeAtRest.intr (h : HandshakeAtRest s.piuH s.piuF) (q : PiuId) (x : Port) :
    (s.piu q).intr x = intrOf s.piuH s.piuF q (s.piu q) x := by
  obtain ⟨-, hreq⟩ := h
  cases q
  · exact (hreq x).1
  · exact (hreq x).2

/-- On a linked port at rest the receiver's request is up when its buffer is full and the sender's is empty (R291). -/
theorem HandshakeAtRest.receiver_intr (h : HandshakeAtRest s.piuH s.piuF) (hl : s.Linked x) :
    (s.piu x.receiver).intr x
      = ((s.piu x.receiver).inte x && (s.piu x.receiver).ibf x && !(s.piu x.sender).obf x) := by
  obtain ⟨hstrobed, hdir⟩ := Piu.strobedIn_iff.mp (State.linked_iff.mp hl).2
  rw [h.intr, intrOf, if_pos hstrobed, if_pos hdir, strobe_receiver, hl.linkActive, Bool.true_and]

/-- On a linked port at rest the sender's request is up when its own buffer and the receiver's are empty (R291). -/
theorem HandshakeAtRest.sender_intr (h : HandshakeAtRest s.piuH s.piuF) (hl : s.Linked x) :
    (s.piu x.sender).intr x
      = ((s.piu x.sender).inte x && !(s.piu x.sender).obf x && !(s.piu x.receiver).ibf x) := by
  obtain ⟨hstrobed, hdir⟩ := Piu.strobedOut_iff.mp (State.linked_iff.mp hl).1
  rw [h.intr, intrOf, if_pos hstrobed, if_neg (Bool.eq_false_iff.mp hdir), acknowledge_sender, hl.linkActive,
    Bool.true_and]

/-- A port's flags and input latch after `PIU_UPDATE()`, by whether the strobe rises (R290). -/
theorem State.piuUpdate_port (s : State) (x : Port) :
    (s.piuUpdate.piu x.receiver).ibf x = ((s.piu x.receiver).ibf x || delivered s.piuH s.piuF x)
      ∧ (s.piuUpdate.piu x.receiver).inp x
        = (if delivered s.piuH s.piuF x then (s.piu x.sender).out x else (s.piu x.receiver).inp x)
      ∧ (s.piuUpdate.piu x.sender).obf x
        = ((s.piu x.sender).obf x && !(linkActive s.piuH s.piuF x
            && ((s.piu x.receiver).ibf x || delivered s.piuH s.piuF x) && !(s.piu x.sender).ackIn x)) := by
  cases x <;> simp only [Port.receiver, Port.sender, PiuId.other, State.piu_h, State.piu_f, State.piuUpdate_piuH,
    State.piuUpdate_piuF, piuSettle_eq] <;> exact ⟨rfl, rfl, rfl⟩

theorem State.Linked.piuUpdate (h : s.Linked x) : s.piuUpdate.Linked x := by
  rw [State.linked_iff] at h ⊢
  rwa [State.piuUpdate_strobedOut, State.piuUpdate_strobedIn]

/-- A full output buffer on a linked port whose samples are 0 is delivered and acknowledged at once (R290, R295). -/
theorem State.Linked.acknowledged (hl : s.Linked x) (hobf : (s.piu x.sender).obf x = true)
    (hstb : (s.piu x.receiver).stbIn x = false) (hack : (s.piu x.sender).ackIn x = false) :
    s.piuUpdate.Acknowledged x ((s.piu x.sender).out x) := by
  have hdel : delivered s.piuH s.piuF x = true := by simp [delivered_eq, hl.linkActive, hobf, hstb]
  obtain ⟨hibf', hinp', hobf'⟩ := s.piuUpdate_port x
  simp only [hdel, hl.linkActive, hobf, hack, Bool.or_true, Bool.not_false, Bool.and_true, Bool.not_true,
    Bool.and_false, if_true] at hibf' hinp' hobf'
  have hR := s.piuUpdate_atRest.receiver_intr hl.piuUpdate
  have hS := s.piuUpdate_atRest.sender_intr hl.piuUpdate
  exact ⟨hinp', hibf', hobf', by simp [hS, hibf'], by simp [hR, hibf', hobf']⟩

/-- Empty buffers on a linked port stay empty (R290, R295). -/
theorem State.Linked.ready (hl : s.Linked x) (hobf : (s.piu x.sender).obf x = false)
    (hibf : (s.piu x.receiver).ibf x = false) : s.piuUpdate.Ready x := by
  have hdel : delivered s.piuH s.piuF x = false := by simp [delivered_eq, hobf]
  obtain ⟨hibf', -, hobf'⟩ := s.piuUpdate_port x
  simp only [hdel, hobf, hibf, Bool.or_false, Bool.false_and] at hibf' hobf'
  have hR := s.piuUpdate_atRest.receiver_intr hl.piuUpdate
  have hS := s.piuUpdate_atRest.sender_intr hl.piuUpdate
  exact ⟨hibf', hobf', by simp [hR, hibf'], by simp [hS, hibf', hobf']⟩

/-- With no byte waiting nothing is delivered (R290). -/
theorem State.piuUpdate_of_empty (hobf : (s.piu x.sender).obf x = false) :
    (s.piuUpdate.piu x.sender).obf x = false
      ∧ (s.piuUpdate.piu x.receiver).inp x = (s.piu x.receiver).inp x := by
  have hdel : delivered s.piuH s.piuF x = false := by simp [delivered_eq, hobf]
  obtain ⟨-, hinp', hobf'⟩ := s.piuUpdate_port x
  exact ⟨by simp [hobf', hobf], by simp [hinp', hdel]⟩

/-- A port that is not linked keeps its byte waiting (R296). -/
theorem State.piuUpdate_of_not_linked (hl : ¬ s.Linked x) :
    (s.piuUpdate.piu x.sender).obf x = (s.piu x.sender).obf x
      ∧ (s.piuUpdate.piu x.receiver).inp x = (s.piu x.receiver).inp x := by
  have hlink : linkActive s.piuH s.piuF x = false := Bool.eq_false_iff.mpr hl
  have hdel : delivered s.piuH s.piuF x = false := by simp [delivered_eq, hlink]
  obtain ⟨-, hinp', hobf'⟩ := s.piuUpdate_port x
  exact ⟨by simp [hobf', hlink], by simp [hinp', hdel]⟩

end update

/-! ### The operations on a port -/

section operations

variable {s : State} {x : Port}

/-- The sender's write on a port that is linked and ready (R295). -/
theorem State.Linked.piuWrite_acknowledged (hl : s.Linked x) (hrest : HandshakeAtRest s.piuH s.piuF)
    (hobf : (s.piu x.sender).obf x = false) (hibf : (s.piu x.receiver).ibf x = false) (v : Byte) :
    (s.piuWrite x.sender x v).Linked x ∧ (s.piuWrite x.sender x v).Acknowledged x v := by
  obtain ⟨hout, hin⟩ := State.linked_iff.mp hl
  rw [State.piuWrite_of_strobedOut hout]
  have hlw : (s.setPiu x.sender (((s.piu x.sender).setOut x v).setObf x true)).Linked x :=
    State.linked_iff.mpr ⟨by simpa using hout, by simpa using hin⟩
  have hack := hlw.acknowledged (by simp) (by simp [hrest.stbIn, hobf]) (by simp [hrest.ackIn, hibf])
  exact ⟨hlw.piuUpdate, by simpa using hack⟩

/-- The receiver's read in the acknowledged phase (R280, R295): callbacks and the byte are output. -/
theorem State.Acknowledged.piuRead_ready {v : Byte} (h : s.Acknowledged x v) (hl : s.Linked x) :
    (s.piuRead x.receiver x).Ready x
      ∧ ∃ es, (s.piuRead x.receiver x).trace = s.trace ++ es ++ [portEvent x.receiver x v]
        ∧ ∀ e ∈ es, ∃ l b, e = .callback l b := by
  obtain ⟨hout, hin⟩ := State.linked_iff.mp hl
  rw [State.piuRead_of_strobedIn hin, h.inp]
  have hlr : (s.setPiu x.receiver ((s.piu x.receiver).setIbf x false)).Linked x :=
    State.linked_iff.mpr ⟨by simpa using hout, by simpa using hin⟩
  obtain ⟨hibf, hobf, hR, hS⟩ := hlr.ready (by simpa using h.obf) (by simp)
  obtain ⟨-, -, es, htrace, hes⟩ :=
    (s.setPiu x.receiver ((s.piu x.receiver).setIbf x false)).piuUpdate_piuFrame
  exact ⟨⟨hibf, hobf, hR, hS⟩, es, by rw [State.output_trace, htrace, State.setPiu_trace], hes⟩

/-- A write to a unit that leaves its interrupt enable, then `PIU_UPDATE()`, leaves both units' enables. -/
theorem State.setPiu_piuUpdate_inte {q : PiuId} {p : Piu} (hp : p.inte x = (s.piu q).inte x) (q' : PiuId) :
    ((s.setPiu q p).piuUpdate.piu q').inte x = (s.piu q').inte x := by
  rw [State.piuUpdate_inte]
  cases q <;> cases q'
  case h.h | f.f => exact hp
  case h.f | f.h => rfl

theorem State.Linked.piuWrite_inte (hl : s.Linked x) (v : Byte) (q : PiuId) :
    ((s.piuWrite x.sender x v).piu q).inte x = (s.piu q).inte x := by
  rw [State.piuWrite_of_strobedOut (State.linked_iff.mp hl).1]
  exact State.setPiu_piuUpdate_inte (by simp) q

theorem State.Linked.piuRead_inte (hl : s.Linked x) (q : PiuId) :
    ((s.piuRead x.receiver x).piu q).inte x = (s.piu q).inte x := by
  rw [State.piuRead_of_strobedIn (State.linked_iff.mp hl).2]
  exact State.setPiu_piuUpdate_inte (by simp) q

/-- The four-phase cycle of a port (R295): the sender's write, then the receiver's read. -/
theorem State.Linked.fourPhaseCycle (hl : s.Linked x) (hrest : HandshakeAtRest s.piuH s.piuF)
    (hobf : (s.piu x.sender).obf x = false) (hibf : (s.piu x.receiver).ibf x = false) (v : Byte) :
    ∃ t u es, t = s.piuWrite x.sender x v ∧ u = t.piuRead x.receiver x
      ∧ t.Acknowledged x v ∧ (t.piu x.receiver).intr x = (s.piu x.receiver).inte x
      ∧ u.Ready x ∧ (u.piu x.sender).intr x = (s.piu x.sender).inte x
      ∧ u.trace = t.trace ++ es ++ [portEvent x.receiver x v] ∧ ∀ e ∈ es, ∃ l b, e = .callback l b := by
  obtain ⟨hlt, ht⟩ := hl.piuWrite_acknowledged hrest hobf hibf v
  obtain ⟨hu, es, htrace, hes⟩ := ht.piuRead_ready hlt
  refine ⟨_, _, es, rfl, rfl, ht, ?_, hu, ?_, htrace, hes⟩
  · rw [ht.receiver_intr, hl.piuWrite_inte]
  · rw [hu.sender_intr, hlt.piuRead_inte, hl.piuWrite_inte]

/-- A byte the sender writes to a port that is not linked waits in its latch (R279, R296). -/
theorem State.piuWrite_waiting (hout : (s.piu x.sender).strobedOut x = true) (hl : ¬ s.Linked x) (v : Byte) :
    (s.piuWrite x.sender x v).Waiting x v
      ∧ ((s.piuWrite x.sender x v).piu x.receiver).inp x = (s.piu x.receiver).inp x := by
  rw [State.piuWrite_of_strobedOut hout]
  have hlw : ¬ (s.setPiu x.sender (((s.piu x.sender).setOut x v).setObf x true)).Linked x := by
    simpa [State.linked_iff] using hl
  obtain ⟨hobf, hinp⟩ := State.piuUpdate_of_not_linked hlw
  refine ⟨⟨by simpa using hout, ?_, State.piuUpdate_atRest _, by simpa using hobf, by simp⟩, by simpa using hinp⟩
  simpa [State.linked_iff] using hlw

/-- The receiver's mode word for strobed input delivers the byte that waits at the sender (R276, R296). -/
theorem State.Waiting.piuSetMode_acknowledged {v : Byte} (h : s.Waiting x v) {m : ModeWord}
    (hin : ((s.piu x.receiver).setMode m).strobedIn x = true) : (s.piuSetMode x.receiver m).Acknowledged x v := by
  have hlink : linkActive s.piuH s.piuF x = false := Bool.eq_false_iff.mpr h.unlinked
  have hlm : (s.setPiu x.receiver ((s.piu x.receiver).setMode m)).Linked x :=
    State.linked_iff.mpr ⟨by simpa using h.strobedOut, by simpa using hin⟩
  have hack := hlm.acknowledged (by simpa using h.obf) (by simp [h.atRest.stbIn, hlink])
    (by simp [h.atRest.ackIn, hlink])
  simpa [State.piuSetMode, h.out] using hack

/-- The sender's own mode word drops the byte that waits at it (R276, R296). -/
theorem State.piuSetMode_drops (s : State) (x : Port) (m : ModeWord) :
    ((s.piuSetMode x.sender m).piu x.sender).obf x = false
      ∧ ((s.piuSetMode x.sender m).piu x.sender).out x = 0
      ∧ ((s.piuSetMode x.sender m).piu x.receiver).inp x = (s.piu x.receiver).inp x := by
  obtain ⟨hobf, hinp⟩ := State.piuUpdate_of_empty
    (s := s.setPiu x.sender ((s.piu x.sender).setMode m)) (x := x) (by simp)
  exact ⟨hobf, by simp [State.piuSetMode], by simpa [State.piuSetMode] using hinp⟩

end operations

theorem Piu.strobedOut_a {p : Piu} (hma : p.ma = 1) (hdir : p.dirA = false) : p.strobedOut .a = true :=
  Piu.strobedOut_iff.mpr ⟨beq_iff_eq.mpr hma, hdir⟩

theorem Piu.strobedIn_a {p : Piu} (hma : p.ma = 1) (hdir : p.dirA = true) : p.strobedIn .a = true :=
  Piu.strobedIn_iff.mpr ⟨beq_iff_eq.mpr hma, hdir⟩

/-- Settles O50: the cycle of port A and of port B. -/
theorem fourPhaseCycles : Obligations.FourPhaseCycles := by
  intro v s hs
  obtain ⟨hrest, -, -⟩ := handshakeSettled_iff.mp hs
  refine ⟨fun hmaH hdirH hmaF hdirF hobf hibf => ?_, fun hmbF hdirF hmbH hdirH hobf hibf => ?_⟩
  · have hl : s.Linked .a := State.linked_iff.mpr ⟨Piu.strobedOut_a hmaH hdirH, Piu.strobedIn_a hmaF hdirF⟩
    obtain ⟨_, _, es, rfl, rfl, ht, htr, hu, hus, htrace, hes⟩ := hl.fourPhaseCycle hrest hobf hibf v
    exact ⟨_, _, es, rfl, rfl, ht.inp, ht.ibf, ht.obf, ht.sender_intr, htr, htrace, hes, hu.ibf, hu.receiver_intr, hus,
      hu.obf⟩
  · have hl : s.Linked .b :=
      State.linked_iff.mpr ⟨Piu.strobedOut_iff.mpr ⟨hmbF, hdirF⟩, Piu.strobedIn_iff.mpr ⟨hmbH, hdirH⟩⟩
    obtain ⟨_, _, es, rfl, rfl, ht, htr, hu, hus, htrace, hes⟩ := hl.fourPhaseCycle hrest hobf hibf v
    exact ⟨_, _, es, rfl, rfl, ht.inp, ht.ibf, ht.obf, ht.sender_intr, htr, htrace, hes, hu.ibf, hu.receiver_intr, hus,
      hu.obf⟩

/-- Settles O51: the byte waits at the sender of port A, and a mode word of either unit ends the wait. -/
theorem waitingByteDelivered : Obligations.WaitingByteDelivered := by
  intro v s _ hma hdir hF
  have hout : s.piuH.strobedOut .a = true := Piu.strobedOut_a hma hdir
  have hl : ¬ s.Linked .a := by
    intro hl
    obtain ⟨hstrobed, hdirF⟩ := Piu.strobedIn_iff.mp (State.linked_iff.mp hl).2
    rcases hF with hF | hF
    · exact absurd (hF.symm.trans (beq_iff_eq.mp hstrobed)) (by decide)
    · exact Bool.false_ne_true (hF.symm.trans hdirF)
  obtain ⟨ht, hinp⟩ := State.piuWrite_waiting (x := .a) hout hl v
  refine ⟨_, rfl, ht.obf, ht.out, hinp, fun m hm hmdir => ?_, fun m _ => ?_⟩
  · have hu := ht.piuSetMode_acknowledged (m := m) (Piu.strobedIn_a hm hmdir)
    exact ⟨_, rfl, hu.inp, hu.ibf, hu.obf⟩
  · obtain ⟨hobfu, houtu, hinpu⟩ := State.piuSetMode_drops (s.piuWrite .h .a v) .a m
    exact ⟨_, rfl, hobfu, houtu, hinpu.trans hinp⟩

end Sys2Proof.Machine

/-! `NET_UPDATE` from any state, the registers of the network, and the host line after a pulse of the timer
(spec/44_interrupt_network.md R314 to R316, R320 to R327; default PULSE, log 10). -/

namespace Sys2Proof.Machine

/-! ### The registers -/

/-- The four offsets of TCR, and of TSR (R314 to R316). -/
theorem netOffset_eq (m : BitVec 2) : 2#2 ++ m = 8 + m.setWidth 4 ∧ 3#2 ++ m = 12 + m.setWidth 4 := by
  revert m
  decide

theorem tsr_eq (n : Net) (h : Piu) :
    tsr n h = BitVec.ofBool (n.host == .high) ++ 0#3 ++ BitVec.ofBool n.card ++ BitVec.ofBool h.intrB
      ++ BitVec.ofBool h.intrA ++ BitVec.ofBool n.ts := by
  unfold tsr byteOfBits
  generalize (n.host == HostLine.high) = b
  cases b <;> rfl

/-- Settles O52: the offset and the byte of each read; a write to TSR is ignored. -/
theorem networkRegisters : Obligations.NetworkRegisters := by
  intro m v s
  obtain ⟨htcr, htsr⟩ := netOffset_eq m
  rw [← htcr, ← htsr, ← tsr_eq]
  exact ⟨rfl, rfl, rfl, rfl⟩

/-! ### What `NET_UPDATE` computes -/

theorem State.netUpdate_frame (s : State) :
    s.netUpdate = { s with net := s.netUpdate.net, trace := s.netUpdate.trace } := by
  rw [State.netUpdate_eq]

/-- The timer status flip-flop after `NET_UPDATE()` (R322). -/
theorem State.netUpdate_ts (s : State) :
    s.netUpdate.net.ts = if s.net.tcr.getLsbD 1 = true then false
      else if s.net.out0Seen = false ∧ s.pit.out0 = true ∧ s.net.tcr.getLsbD 0 = true then true else s.net.ts := by
  rw [State.netUpdate_eq]
  simp [netAfter, Net.refresh, Net.tsUpdate, Net.tc, Net.te, and_assoc]

@[simp] theorem State.netUpdate_out0Seen (s : State) : s.netUpdate.net.out0Seen = s.pit.out0 := by
  rw [State.netUpdate_eq]
  rfl

/-- The callbacks of `NET_UPDATE()`: HOST before FW, each if the level to report is not the last reported one (R326). -/
theorem State.netUpdate_trace (s : State) :
    s.netUpdate.trace = s.trace
      ++ (if s.netUpdate.net.hostSeen = s.net.hostSeen then [] else [.callback .host s.netUpdate.net.hostSeen])
      ++ (if s.netUpdate.net.fwSeen = s.net.fwSeen then [] else [.callback .fw s.netUpdate.net.fwSeen]) := by
  rw [State.netUpdate_eq]
  exact (List.append_assoc ..).symm

/-! ### A network at rest -/

section settled

variable {s : State}

/-- An output level that is no rising edge leaves the timer status, cleared already while TC = 1 (R322). -/
theorem Net.tsUpdate_of_no_rise {n : Net} {level : Bool} (hlevel : level = true → n.out0Seen = true)
    (htc : n.tcr.getLsbD 1 = true → n.ts = false) : n.tsUpdate level = { n with out0Seen := level } := by
  have hrise : ¬ (!n.out0Seen && level && n.te) = true := by
    cases level
    · simp
    · simp [hlevel rfl]
  have hts : (if n.tc then false else n.ts) = n.ts := by
    split
    case isTrue h => exact (htc h).symm
    case isFalse => rfl
  rw [Net.tsUpdate, if_neg hrise, hts]

/-- An output level that is no rising edge moves no level of a network at rest. -/
theorem State.NetSettled.refresh (h : s.NetSettled) {level : Bool} (hlevel : level = true → s.pit.out0 = true) :
    s.net.refresh level s.piuH s.piuF = { s.net with out0Seen := level } := by
  obtain ⟨hseen, htc, hcard, hhost, hfw, -, -⟩ := h
  rw [Net.refresh, Net.tsUpdate_of_no_rise (fun hl => hseen.trans (hlevel hl)) htc]
  have hc : cardStatus { s.net with out0Seen := level } s.piuH = s.net.card := hcard.symm
  have hl : hostLine { s.net with out0Seen := level } s.net.card = s.net.host := hhost.symm
  simp only [hc, hl, ← hfw]

/-- An output level that is no rising edge is sampled, and outputs nothing from a network at rest (R322, R326). -/
theorem State.NetSettled.driveOut0 (h : s.NetSettled) {level : Bool} (hlevel : level = true → s.pit.out0 = true) :
    s.driveOut0 level
      = { s with pit := { s.pit with out0 := level }, net := { s.net with out0Seen := level } } := by
  have hrefresh := h.refresh hlevel
  obtain ⟨-, -, -, -, -, hhost, hfw⟩ := h
  simp [State.driveOut0, State.netUpdate_eq, netAfter, hrefresh, netReports, ← hhost, ← hfw, State.setPit]

/-- A network at rest is a fixed point of `NET_UPDATE()`. -/
theorem State.NetSettled.netUpdate (h : s.NetSettled) : s.netUpdate = s := by
  obtain ⟨hseen, -⟩ := id h
  calc
    s.netUpdate = s.driveOut0 s.pit.out0 := rfl
    _ = { s with net := { s.net with out0Seen := s.pit.out0 } } := h.driveOut0 id
    _ = s := by rw [← hseen]

end settled

/-- Settles O53: `NET_UPDATE()` puts the network at rest, which gives the levels and, as rest is a fixed point, the
second call. -/
theorem netUpdateLevels : Obligations.NetUpdateLevels := by
  intro s
  have hrest := s.netUpdate_netSettled
  obtain ⟨-, -, hcard, hhost, hfw, hhostSeen, hfwSeen⟩ := id hrest
  rw [State.netUpdate_piuH] at hcard
  rw [State.netUpdate_tcr] at hhost
  rw [State.netUpdate_piuF] at hfw
  refine ⟨_, rfl, s.netUpdate_frame, s.netUpdate_tcr, s.netUpdate_out0Seen, s.netUpdate_ts, hcard, ?_, hfw, ?_, hfwSeen,
    s.netUpdate_trace, hrest.netUpdate⟩
  · simpa only [Bool.and_eq_true] using hhost
  · rw [hhostSeen]
    exact beq_iff_eq

/-! ### The host line -/

/-- `t` comes after `s` with the timer status set: its host line is driven by OE and IE (R323, R324), and the callbacks
between are those of that line (R326). -/
structure DrivesHost (s t : State) : Prop where
  ts : t.net.ts = true
  host : t.net.host = if t.net.tcr.getLsbD 6 = true then (if t.net.tcr.getLsbD 7 = true then .high else .low) else .z
  trace : t.trace = s.trace
    ++ if (t.net.host == .high) = s.net.hostSeen then [] else [.callback .host (t.net.host == .high)]

section host

variable {s t : State}

theorem DrivesHost.high (h : DrivesHost s t) (hoe : t.net.tcr.getLsbD 6 = true) (hie : t.net.tcr.getLsbD 7 = true) :
    t.net.host = .high
      ∧ t.trace = s.trace ++ if s.net.hostSeen = true then [] else [.callback .host true] := by
  have hhost := h.host
  rw [if_pos hoe, if_pos hie] at hhost
  refine ⟨hhost, ?_⟩
  rw [h.trace, hhost]
  cases s.net.hostSeen <;> rfl

theorem DrivesHost.z (h : DrivesHost s t) (hoe : t.net.tcr.getLsbD 6 = false) (hseen : s.net.hostSeen = false) :
    t.net.host = .z ∧ t.trace = s.trace := by
  have hhost := h.host
  rw [hoe, if_neg Bool.false_ne_true] at hhost
  refine ⟨hhost, ?_⟩
  rw [h.trace, hhost, hseen]
  exact List.append_nil _

/-- `NET_UPDATE()` that leaves the timer status set, from a firmware line at its reported level. -/
theorem State.drivesHost_netUpdate (hts : s.netUpdate.net.ts = true)
    (hfw : s.net.fwSeen = (s.piuF.intrA || s.piuF.intrB)) : DrivesHost s s.netUpdate := by
  obtain ⟨-, -, hcard, hhost, hfw', hhostSeen, hfwSeen⟩ := s.netUpdate_netSettled
  rw [hts, Bool.true_or, Bool.true_or] at hcard
  rw [hcard, Bool.true_and] at hhost
  rw [State.netUpdate_piuF] at hfw'
  have hfwKept : s.netUpdate.net.fwSeen = s.net.fwSeen := (hfwSeen.trans hfw').trans hfw.symm
  refine ⟨hts, hhost, ?_⟩
  rw [s.netUpdate_trace, if_pos hfwKept, List.append_nil, hhostSeen]

@[simp] theorem State.writeTcr_tcr (s : State) (v : Byte) : (s.writeTcr v).net.tcr = v :=
  State.netUpdate_tcr _

/-- A write of TCR with TC = 0 keeps the timer status (R314, R322). -/
theorem State.NetSettled.drivesHost_writeTcr (h : s.NetSettled) (hts : s.net.ts = true) {v : Byte}
    (hv : v.getLsbD 1 = false) : DrivesHost s (s.writeTcr v) := by
  obtain ⟨-, -, -, -, hfw, -, hfwSeen⟩ := h
  have hts' : (s.writeTcr v).net.ts = true := by
    rw [State.writeTcr, State.netUpdate_ts, State.setNet_net, hv, if_neg Bool.false_ne_true, hts]
    exact ite_self true
  obtain ⟨-, hhost, htrace⟩ :=
    State.drivesHost_netUpdate (s := s.setNet { s.net with tcr := v }) hts' (hfwSeen.trans hfw)
  exact ⟨hts', hhost, htrace⟩

/-- A tick at count 1 with TE = 1 and TC = 0 sets the timer status; the low half of its pulse is silent (R247, R322). -/
theorem State.NetSettled.drivesHost_pulse (h : s.NetSettled) (hte : s.net.tcr.getLsbD 0 = true)
    (htc : s.net.tcr.getLsbD 1 = false) (hrun : s.pit.cnt0.run = 1) :
    DrivesHost s (State.pitTickWith params.tickMode s) := by
  have hts : (State.pitTickWith params.tickMode s).net.ts = true := by
    rw [State.pitTick_pulse_ts hrun, htc, if_neg Bool.false_ne_true, if_pos hte]
  have hreload : State.NetSettled
      { s with pit := { s.pit with cnt0 := { s.pit.cnt0 with run := s.pit.cnt0.load } } } := h
  obtain ⟨-, -, -, -, hfw, -, hfwSeen⟩ := h
  rw [s.pitTick_pulse hrun, hreload.driveOut0 (level := false) nofun] at hts ⊢
  obtain ⟨-, hhost, htrace⟩ := State.drivesHost_netUpdate hts (hfwSeen.trans hfw)
  exact ⟨hts, hhost, htrace⟩

/-- At rest the last reported level of the host line is the card status gated by OE and IE (R324, R326). -/
theorem State.NetSettled.hostSeen_eq (h : s.NetSettled) :
    s.net.hostSeen = (s.net.tcr.getLsbD 6 && (s.net.card && s.net.tcr.getLsbD 7)) := by
  obtain ⟨-, -, -, hhost, -, hseen, -⟩ := h
  rw [hseen, hhost]
  cases s.net.tcr.getLsbD 6
  · rfl
  · cases s.net.card && s.net.tcr.getLsbD 7 <;> rfl

end host

/-- Settles O43: the pulse, and the later write of TCR, each leave the timer status set, and the network was at rest
before each. -/
theorem tickRaisesHostLine : Obligations.TickRaisesHostLine := by
  intro s h hte htc hrun
  have hpulse := h.drivesHost_pulse hte htc hrun
  obtain ⟨-, htcr⟩ := reaches_timerClock_pitTickWith params.tickMode s
  have hrest : (State.pitTickWith params.tickMode s).NetSettled := by
    rw [s.pitTick_pulse hrun]
    exact State.netUpdate_netSettled _
  refine ⟨fun hoe hie => ?_, fun hoe => ?_⟩
  · obtain ⟨hhost, htrace⟩ := hpulse.high (htcr ▸ hoe) (htcr ▸ hie)
    have hseen : s.net.hostSeen = s.net.card := by rw [h.hostSeen_eq, hoe, hie, Bool.true_and, Bool.and_true]
    exact ⟨_, rfl, hpulse.ts, hhost, hseen ▸ htrace⟩
  · have hseen : s.net.hostSeen = false := by rw [h.hostSeen_eq, hoe, Bool.false_and]
    obtain ⟨hhost, htrace⟩ := hpulse.z (htcr ▸ hoe) hseen
    refine ⟨_, rfl, hpulse.ts, hhost, htrace, fun m v hvtc hvoe hvie => ⟨_, rfl, ?_⟩⟩
    obtain ⟨hhost', htrace'⟩ := (hrest.drivesHost_writeTcr hpulse.ts hvtc).high
      (by rwa [State.writeTcr_tcr]) (by rwa [State.writeTcr_tcr])
    have hseen' : (State.pitTickWith params.tickMode s).net.hostSeen = false := by
      rw [hrest.hostSeen_eq, htcr, hoe, Bool.false_and]
    refine ⟨hhost', ?_⟩
    rw [hseen', htrace] at htrace'
    exact htrace'

end Sys2Proof.Machine

/-! A byte fed to a classifier, said once (spec/45_midi_classifier.md R340 to R346): for every table set, then for the
default one (log 11) by the class of the byte and of the state it leads to. -/

namespace Sys2Proof.Machine

variable {b : Byte} {q : Nat}

/-! ### The deliveries -/

/-- A delivery is the message of its own stream to some destination (R345). -/
theorem exists_of_mem_deliveries {st : Stream} {route flow : BitVec 3} {msg : List Byte} {e : Event}
    (h : e ∈ deliveries st route flow msg) : ∃ d, e = .emit d st msg := by
  obtain ⟨d, -, rfl⟩ := List.mem_map.mp h
  exact ⟨d, rfl⟩

/-- A route of all destinations leaves the choice to the flow row (R345, R355). -/
theorem deliveries_all (st : Stream) (flow : BitVec 3) (msg : List Byte) :
    deliveries st 7 flow msg = forwarded st flow msg := by
  simp only [deliveries, destinations, forwarded, Dest.bit, List.filter_cons]
  cases flow.getLsbD 0 <;> cases flow.getLsbD 1 <;> cases flow.getLsbD 2 <;> rfl

theorem keepStatus_eq (acc : List Byte) : keepStatus acc = (acc.take 1).filter fun b => b.getLsbD 7 := by
  cases acc with
  | nil => rfl
  | cons b bs => rw [List.take_succ_cons, List.take_zero, List.filter_cons, List.filter_nil]; rfl

/-! ### Any table set -/

section tables

variable (T : MpcTables) (st : Stream) (m : Mpc)

theorem MpcTables.nextState_of_status (q : Nat) (hb : isStatus b = true) :
    T.nextState q b = if b.extractLsb 7 4 = 15 then T.sysNext (b.extractLsb 3 0) else T.statusNext (b.extractLsb 7 4) :=
  if_pos hb

theorem MpcTables.nextState_of_data (q : Nat) (hb : isStatus b = false) : T.nextState q b = T.dataNext q b :=
  if_neg (Bool.eq_false_iff.mp hb)

theorem MpcTables.nextAcc_of_status (acc : List Byte) (q : Nat) (hb : isStatus b = true) : T.nextAcc acc q b = [b] :=
  if_pos hb

theorem MpcTables.nextAcc_of_data (acc : List Byte) (q : Nat) (hb : isStatus b = false) :
    T.nextAcc acc q b = if T.keep q then appendAcc acc b else [] :=
  if_neg (Bool.eq_false_iff.mp hb)

/-- The byte to the SysEx engine, where one is due (R344). -/
def MpcTables.sysexBytes (q0 q : Nat) (b : Byte) : List Event :=
  if T.toSysex q0 q b then [.sysex st b] else []

theorem MpcTables.eq_sysex_of_mem {T : MpcTables} {st : Stream} {q0 q : Nat} {e : Event}
    (h : e ∈ T.sysexBytes st q0 q b) : e = .sysex st b := by
  unfold MpcTables.sysexBytes at h
  split at h
  · exact List.mem_singleton.mp h
  · cases h

theorem MpcTables.length_sysexBytes_le (q0 q : Nat) (b : Byte) : (T.sysexBytes st q0 q b).length ≤ 1 := by
  unfold MpcTables.sysexBytes
  split
  · exact le_rfl
  · exact Nat.zero_le 1

/-- A byte that leads to no terminal state forwards nothing (R340). -/
theorem Mpc.feed_of_term_none (h : T.term (T.nextState m.state b) = none) :
    m.feed T st b =
      ({ m with state := T.nextState m.state b, acc := T.nextAcc m.acc (T.nextState m.state b) b },
        T.sysexBytes st m.state (T.nextState m.state b) b) := by
  unfold Mpc.feed
  simp only [h]
  rfl

/-- A byte that leads to a terminal state forwards a message and keeps its status byte (R345, R346). -/
theorem Mpc.feed_of_term_some {route : BitVec 3} {len : Nat} (h : T.term (T.nextState m.state b) = some (route, len)) :
    m.feed T st b =
      ({ m with state := T.nextState m.state b
                acc := keepStatus (T.nextAcc m.acc (T.nextState m.state b) b) },
        T.sysexBytes st m.state (T.nextState m.state b) b
          ++ deliveries st route m.flow ((T.nextAcc m.acc (T.nextState m.state b) b).take len)) := by
  unfold Mpc.feed
  simp only [h]
  rfl

theorem Mpc.feed_state (b : Byte) : (m.feed T st b).1.state = T.nextState m.state b := by
  unfold Mpc.feed
  dsimp only
  split <;> rfl

/-- The classifier after a byte in its fields; the flow row is the old one. -/
theorem Mpc.feed_fst (b : Byte) :
    (m.feed T st b).1 = { m with state := T.nextState m.state b, acc := (m.feed T st b).1.acc } := by
  rw [← Mpc.feed_state T st m b, ← Mpc.feed_flow T st m b]

/-- A status byte drops what was being collected (R341). -/
theorem Mpc.feed_status_acc (hb : isStatus b = true) : (m.feed T st b).1.acc = [b] := by
  have hkept : keepStatus [b] = [b] := if_pos hb
  unfold Mpc.feed
  simp only [T.nextAcc_of_status _ _ hb]
  split
  · exact hkept
  · rfl

/-- What a status byte forwards is that byte or nothing, after the byte to the SysEx engine (R341, R344). -/
theorem Mpc.feed_status_events (hb : isStatus b = true) :
    ∃ es, (m.feed T st b).2 = T.sysexBytes st m.state (T.nextState m.state b) b ++ es
      ∧ ∀ e ∈ es, ∃ d msg, e = .emit d st msg ∧ (msg = [b] ∨ msg = []) := by
  cases hterm : T.term (T.nextState m.state b) with
  | none => exact ⟨[], by rw [m.feed_of_term_none T st hterm, List.append_nil], by simp⟩
  | some p =>
    obtain ⟨route, len⟩ := p
    refine ⟨_, by rw [m.feed_of_term_some T st hterm], fun e he => ?_⟩
    rw [T.nextAcc_of_status _ _ hb] at he
    obtain ⟨d, rfl⟩ := exists_of_mem_deliveries he
    refine ⟨d, _, rfl, ?_⟩
    cases len with
    | zero => exact .inr rfl
    | succ n => exact .inl (by rw [List.take_succ_cons, List.take_nil])

end tables

/-! ### The default tables -/

/-- The states a status byte leads to (R352, R353). -/
def statusStates : List Nat :=
  [1, 4, 7, 10, 13, 16, 18, 20, 21, 23, 26, 28, 29, 30, 31]

/-- The states a data byte leads to in the middle of a message (R354, R355). -/
abbrev Collects (q : Nat) : Prop :=
  q = 2 ∨ q = 5 ∨ q = 8 ∨ q = 11 ∨ q = 14 ∨ q = 24

/-- The states that end a three-byte message (R355). -/
abbrev EndsThree (q : Nat) : Prop :=
  q = 3 ∨ q = 6 ∨ q = 9 ∨ q = 12 ∨ q = 15 ∨ q = 25

/-- The states that end a two-byte message (R355). -/
abbrev EndsTwo (q : Nat) : Prop :=
  q = 17 ∨ q = 19 ∨ q = 22 ∨ q = 27

theorem Collects.keep (h : Collects q) : keepState q = true := by
  rcases h with rfl | rfl | rfl | rfl | rfl | rfl <;> rfl

theorem Collects.term (h : Collects q) : termState q = none := by
  rcases h with rfl | rfl | rfl | rfl | rfl | rfl <;> rfl

theorem Collects.ne_sysex (h : Collects q) : q ≠ 20 := by
  omega

/-- A state in which a data byte ends a message of `n` bytes (R345, R355). -/
structure Completes (n q : Nat) : Prop where
  keep : keepState q = true
  term : termState q = some (7, n)
  ne_sysex : q ≠ 20

theorem EndsThree.completes (h : EndsThree q) : Completes 3 q := by
  rcases h with rfl | rfl | rfl | rfl | rfl | rfl <;> exact ⟨rfl, rfl, by decide⟩

theorem EndsTwo.completes (h : EndsTwo q) : Completes 2 q := by
  rcases h with rfl | rfl | rfl | rfl <;> exact ⟨rfl, rfl, by decide⟩

/-- Where a data byte leads, from every state (R354). -/
theorem dataNext_cases (q : Nat) (b : Byte) :
    dataNext q b = 0 ∨ dataNext q b = 20 ∨ Collects (dataNext q b) ∨ EndsThree (dataNext q b)
      ∨ EndsTwo (dataNext q b) := by
  have htab : ∀ x ∈ 0 :: dataNextTab, x = 0 ∨ x = 20 ∨ Collects x ∨ EndsThree x ∨ EndsTwo x := by decide
  apply htab
  rw [dataNext, List.getD_eq_getElem?_getD]
  cases h : dataNextTab[q]? with
  | none => exact List.mem_cons_self
  | some x => exact List.mem_cons_of_mem _ (List.mem_of_getElem? h)

/-- A status byte leads to one of its states (R352, R353). -/
theorem nextState_mem_statusStates (q : Nat) (hb : isStatus b = true) : mpcTables.nextState q b ∈ statusStates := by
  rw [mpcTables.nextState_of_status q hb]
  revert b
  decide

section defaults

variable (st : Stream) (m : Mpc)

/-- A data byte goes to the SysEx engine exactly in the System-Exclusive state (R344). -/
theorem sysexBytes_of_data (q0 q : Nat) (hb : isStatus b = false) :
    mpcTables.sysexBytes st q0 q b = if q = 20 then [.sysex st b] else [] := by
  simp [MpcTables.sysexBytes, MpcTables.toSysex, hb, mpcTables]

/-- A status byte goes there when it leaves or enters that state (R344). -/
theorem sysexBytes_of_status (q0 q : Nat) (hb : isStatus b = true) :
    mpcTables.sysexBytes st q0 q b = if q0 = 20 ∨ q = 20 then [.sysex st b] else [] := by
  simp [MpcTables.sysexBytes, MpcTables.toSysex, hb, mpcTables]

/-- A status byte, from every state (R341, R344, R345, R355). -/
theorem Mpc.feed_status (hb : isStatus b = true) :
    m.feed mpcTables st b =
      ({ m with state := mpcTables.nextState m.state b, acc := [b] },
        (if m.state = 20 ∨ mpcTables.nextState m.state b = 20 then [.sysex st b] else [])
          ++ if mpcTables.nextState m.state b = 28 ∨ mpcTables.nextState m.state b = 31 then forwarded st m.flow [b]
            else []) := by
  refine Prod.ext ?_ ?_
  · rw [Mpc.feed_fst, Mpc.feed_status_acc mpcTables st m hb]
  · have hacc := mpcTables.nextAcc_of_status m.acc (mpcTables.nextState m.state b) hb
    have hends : ∀ x ∈ statusStates, termState x = if x = 28 ∨ x = 31 then some (7, 1) else none := by decide
    have hterm := hends _ (nextState_mem_statusStates m.state hb)
    by_cases hend : mpcTables.nextState m.state b = 28 ∨ mpcTables.nextState m.state b = 31
    · rw [if_pos hend] at hterm
      rw [m.feed_of_term_some mpcTables st hterm, sysexBytes_of_status st _ _ hb, hacc, deliveries_all, if_pos hend]
      rfl
    · rw [if_neg hend] at hterm
      rw [m.feed_of_term_none mpcTables st hterm, sysexBytes_of_status st _ _ hb, if_neg hend, List.append_nil]

variable (hb : isStatus b = false)
include hb

/-- A data byte with no message to belong to is dropped (R343, R355). -/
theorem Mpc.feed_discarded (hq : dataNext m.state b = 0) :
    m.feed mpcTables st b = ({ m with state := 0, acc := [] }, []) := by
  have hnext : mpcTables.nextState m.state b = 0 := (mpcTables.nextState_of_data _ hb).trans hq
  rw [m.feed_of_term_none mpcTables st (by rw [hnext]; rfl), hnext, mpcTables.nextAcc_of_data _ _ hb,
    sysexBytes_of_data st _ _ hb]
  rfl

/-- A data byte of a System-Exclusive message goes to the SysEx engine alone (R344, R355). -/
theorem Mpc.feed_sysex (hq : dataNext m.state b = 20) :
    m.feed mpcTables st b = ({ m with state := 20, acc := [] }, [.sysex st b]) := by
  have hnext : mpcTables.nextState m.state b = 20 := (mpcTables.nextState_of_data _ hb).trans hq
  rw [m.feed_of_term_none mpcTables st (by rw [hnext]; rfl), hnext, mpcTables.nextAcc_of_data _ _ hb,
    sysexBytes_of_data st _ _ hb]
  rfl

/-- A data byte in the middle of a message is accumulated (R343). -/
theorem Mpc.feed_collected (hq : Collects (dataNext m.state b)) :
    m.feed mpcTables st b = ({ m with state := dataNext m.state b, acc := appendAcc m.acc b }, []) := by
  have hnext : mpcTables.nextState m.state b = dataNext m.state b := mpcTables.nextState_of_data _ hb
  have hkeep : mpcTables.keep (dataNext m.state b) = true := hq.keep
  rw [m.feed_of_term_none mpcTables st (by rw [hnext]; exact hq.term), hnext, mpcTables.nextAcc_of_data _ _ hb,
    if_pos hkeep, sysexBytes_of_data st _ _ hb, if_neg hq.ne_sysex]

/-- A data byte that ends a message forwards it and keeps its status byte (R345, R346). -/
theorem Mpc.feed_completed {n : Nat} (hq : Completes n (dataNext m.state b)) :
    m.feed mpcTables st b =
      ({ m with state := dataNext m.state b, acc := keepStatus (appendAcc m.acc b) },
        forwarded st m.flow ((appendAcc m.acc b).take n)) := by
  have hnext : mpcTables.nextState m.state b = dataNext m.state b := mpcTables.nextState_of_data _ hb
  have hkeep : mpcTables.keep (dataNext m.state b) = true := hq.keep
  rw [m.feed_of_term_some mpcTables st (by rw [hnext]; exact hq.term), hnext, mpcTables.nextAcc_of_data _ _ hb,
    if_pos hkeep, sysexBytes_of_data st _ _ hb, if_neg hq.ne_sysex, List.nil_append, deliveries_all]

end defaults

end Sys2Proof.Machine

/-! What every step keeps of the classifiers (spec/45_midi_classifier.md R343, R347, R351, R355; default tables,
log 11). -/

namespace Sys2Proof.Machine

variable {b : Byte} {q : Nat} {m : Mpc} {s t : State}

/-! ### Framed messages -/

theorem FramedMessage.singleton (hb : isStatus b = true) : FramedMessage [b] :=
  ⟨b, [], rfl, hb, by simp⟩

theorem FramedMessage.append_data {msg : List Byte} (h : FramedMessage msg) (hb : isStatus b = false) :
    FramedMessage (msg ++ [b]) := by
  obtain ⟨b0, ds, rfl, hb0, hds⟩ := h
  refine ⟨b0, ds ++ [b], rfl, hb0, fun d hd => ?_⟩
  rcases List.mem_append.mp hd with hd | hd
  · exact hds d hd
  · rw [List.mem_singleton.mp hd, hb]

/-- Forwarding keeps one status byte of a framed message (R346). -/
theorem FramedMessage.keepStatus {msg : List Byte} (h : FramedMessage msg) :
    FramedMessage (keepStatus msg) ∧ (keepStatus msg).length = 1 := by
  obtain ⟨b0, ds, rfl, hb0, -⟩ := h
  have hkept : Machine.keepStatus (b0 :: ds) = [b0] := if_pos hb0
  exact ⟨hkept ▸ .singleton hb0, by rw [hkept, List.length_singleton]⟩

/-- Every message among the events is a status byte and data bytes, three bytes at most. -/
def EmitsFramed (es : List Event) : Prop :=
  ∀ d st msg, Event.emit d st msg ∈ es → FramedMessage msg ∧ msg.length ≤ 3

theorem EmitsFramed.of_not_emit {es : List Event} (h : ∀ d st msg, Event.emit d st msg ∉ es) : EmitsFramed es :=
  fun d st msg hmem => absurd hmem (h d st msg)

theorem EmitsFramed.nil : EmitsFramed [] :=
  .of_not_emit (by simp)

theorem EmitsFramed.append {es es' : List Event} (h : EmitsFramed es) (h' : EmitsFramed es') :
    EmitsFramed (es ++ es') :=
  fun d st msg hmem => (List.mem_append.mp hmem).elim (h d st msg) (h' d st msg)

theorem EmitsFramed.forwarded {msg : List Byte} (hmsg : FramedMessage msg) (hlen : msg.length ≤ 3) (st : Stream)
    (flow : BitVec 3) : EmitsFramed (forwarded st flow msg) := by
  intro d st' msg' hmem
  rw [← deliveries_all] at hmem
  obtain ⟨d', heq⟩ := exists_of_mem_deliveries hmem
  injection heq with _ _ heq
  exact heq ▸ ⟨hmsg, hlen⟩

/-! ### A byte fed to a sound classifier -/

/-- In a state that expects data bytes the accumulator is a message in progress (R351). -/
theorem Mpc.Sound.framed (h : m.Sound) (hlen : 1 ≤ accLength m.state) (hsysex : m.state ≠ 20) :
    FramedMessage m.acc ∧ m.acc.length = accLength m.state := by
  obtain ⟨-, hacc, hlength⟩ := h
  rw [if_neg hsysex] at hlength
  refine ⟨hacc.resolve_left fun hnil => ?_, hlength⟩
  rw [hnil, List.length_nil] at hlength
  omega

/-- A data byte that continues a message of a sound classifier makes it one byte longer. -/
theorem Mpc.Sound.appendAcc (h : m.Sound) (hb : isStatus b = false) {n : Nat} (hlen : accLength m.state = n + 1)
    (hroom : n ≤ 1) (hsysex : m.state ≠ 20) :
    FramedMessage (appendAcc m.acc b) ∧ (appendAcc m.acc b).length = n + 2 := by
  obtain ⟨hframed, hlength⟩ := h.framed (by omega) hsysex
  rw [hlen] at hlength
  have happend : Machine.appendAcc m.acc b = m.acc ++ [b] := if_pos (show m.acc.length < 3 by omega)
  rw [happend, List.length_append, hlength]
  exact ⟨hframed.append_data hb, rfl⟩

/-- How much of a message there is before and after a data byte that belongs to one (R351, R354). -/
theorem accLength_of_dataNext (hq : q < 32) (b : Byte) (hkept : dataNext q b ≠ 0) (hsysex : dataNext q b ≠ 20) :
    q ≠ 20 ∧ dataNext q b < 32 ∧ accLength q = (if EndsThree (dataNext q b) then 2 else 1)
      ∧ accLength (dataNext q b) = if Collects (dataNext q b) then 2 else 1 := by
  have hbyte : dataNext q b = dataNext q 0 := rfl
  rw [hbyte] at hkept hsysex ⊢
  clear hbyte
  revert q
  decide

/-- A state other than System-Exclusive with a framed accumulator of its length is sound. -/
theorem Mpc.Sound.of_framed {acc : List Byte} {flow : BitVec 3} (hq : q < 32) (hsysex : q ≠ 20)
    (hacc : FramedMessage acc) (hlen : acc.length = accLength q) : Mpc.Sound ⟨q, acc, flow⟩ :=
  ⟨hq, .inr hacc, by rw [if_neg hsysex]; exact hlen⟩

theorem Mpc.sound_feed_status (st : Stream) (m : Mpc) (hb : isStatus b = true) :
    (m.feed mpcTables st b).1.Sound ∧ EmitsFramed (m.feed mpcTables st b).2 := by
  have htab : ∀ q ∈ statusStates, q < 32 ∧ if q = 20 then 1 ≤ 1 else 1 = accLength q := by decide
  obtain ⟨hlt, hlen⟩ := htab _ (nextState_mem_statusStates m.state hb)
  rw [Mpc.feed_status st m hb]
  refine ⟨⟨hlt, .inr (.singleton hb), hlen⟩, .append ?_ ?_⟩
  · split
    · exact .of_not_emit (by simp)
    · exact .nil
  · split
    · exact .forwarded (.singleton hb) (by simp) st m.flow
    · exact .nil

/-- A data byte that ends a message of a sound classifier. -/
theorem Mpc.Sound.feed_completed (h : m.Sound) (st : Stream) (hb : isStatus b = false) {n : Nat} (hn : n ≤ 1)
    (hq : Completes (n + 2) (dataNext m.state b)) (hlt : dataNext m.state b < 32) (hsysex : m.state ≠ 20)
    (hbefore : accLength m.state = n + 1) (hafter : accLength (dataNext m.state b) = 1) :
    (m.feed mpcTables st b).1.Sound ∧ EmitsFramed (m.feed mpcTables st b).2 := by
  obtain ⟨hframed, hlength⟩ := h.appendAcc hb hbefore hn hsysex
  obtain ⟨hkept, hkeptLen⟩ := hframed.keepStatus
  rw [Mpc.feed_completed st m hb hq, List.take_of_length_le hlength.le]
  exact ⟨.of_framed hlt hq.ne_sysex hkept (hkeptLen.trans hafter.symm), .forwarded hframed (by omega) st m.flow⟩

theorem Mpc.Sound.feed_data (h : m.Sound) (st : Stream) (hb : isStatus b = false) :
    (m.feed mpcTables st b).1.Sound ∧ EmitsFramed (m.feed mpcTables st b).2 := by
  have hlt : m.state < 32 := h.1
  rcases dataNext_cases m.state b with hq | hq | hq | hq | hq
  · rw [Mpc.feed_discarded st m hb hq]
    exact ⟨⟨by simp, .inl rfl, rfl⟩, .nil⟩
  · rw [Mpc.feed_sysex st m hb hq]
    exact ⟨⟨by simp, .inl rfl, by simp⟩, .of_not_emit (by simp)⟩
  · obtain ⟨hsysex, hlt', hbefore, hafter⟩ := accLength_of_dataNext hlt b (by omega) hq.ne_sysex
    rw [if_neg (by omega)] at hbefore
    rw [if_pos hq] at hafter
    obtain ⟨hframed, hlength⟩ := h.appendAcc hb hbefore (Nat.zero_le 1) hsysex
    rw [Mpc.feed_collected st m hb hq]
    exact ⟨.of_framed hlt' hq.ne_sysex hframed (hlength.trans hafter.symm), .nil⟩
  · have hc := hq.completes
    obtain ⟨hsysex, hlt', hbefore, hafter⟩ := accLength_of_dataNext hlt b (by omega) hc.ne_sysex
    rw [if_pos hq] at hbefore
    rw [if_neg (by omega)] at hafter
    exact h.feed_completed st hb le_rfl hc hlt' hsysex hbefore hafter
  · have hc := hq.completes
    obtain ⟨hsysex, hlt', hbefore, hafter⟩ := accLength_of_dataNext hlt b (by omega) hc.ne_sysex
    rw [if_neg (by omega)] at hbefore hafter
    exact h.feed_completed st hb (Nat.zero_le 1) hc hlt' hsysex hbefore hafter

/-- Any byte keeps a classifier sound, and the messages it forwards are framed (R343, R347, R351, R355). -/
theorem Mpc.Sound.feed (h : m.Sound) (st : Stream) (b : Byte) :
    (m.feed mpcTables st b).1.Sound ∧ EmitsFramed (m.feed mpcTables st b).2 := by
  cases hb : isStatus b with
  | true => exact Mpc.sound_feed_status st m hb
  | false => exact h.feed_data st hb

theorem Mpc.reset_sound : Mpc.reset.Sound :=
  ⟨by decide, .inl rfl, rfl⟩

/-! ### The operations on the other units -/

/-- From `s` to `t` no classifier changed and no message was emitted. -/
def State.MidiSilent (s t : State) : Prop :=
  (∀ st, t.mpc st = s.mpc st) ∧ ∃ es, t.trace = s.trace ++ es ∧ ∀ d st msg, Event.emit d st msg ∉ es

theorem State.MidiSilent.trans {u : State} (hst : s.MidiSilent t) (htu : t.MidiSilent u) : s.MidiSilent u := by
  obtain ⟨hmpc, es, htrace, hes⟩ := hst
  obtain ⟨hmpc', es', htrace', hes'⟩ := htu
  refine ⟨fun st => (hmpc' st).trans (hmpc st), es ++ es', by rw [htrace', htrace, List.append_assoc], ?_⟩
  exact fun d st msg hmem => (List.mem_append.mp hmem).elim (hes d st msg) (hes' d st msg)

/-- An update that reaches neither the classifiers nor the outputs. -/
theorem State.MidiSilent.of_eq (hmpc : ∀ st, t.mpc st = s.mpc st) (ht : t.trace = s.trace) : s.MidiSilent t :=
  ⟨hmpc, [], by rw [ht, List.append_nil], by simp⟩

theorem State.MidiSilent.refl (s : State) : s.MidiSilent s :=
  .of_eq (fun _ => rfl) rfl

/-- Callbacks are no messages. -/
theorem State.MidiSilent.of_callbacks {es : List Event} (hmpc : ∀ st, t.mpc st = s.mpc st)
    (ht : t.trace = s.trace ++ es) (hes : ∀ e ∈ es, ∃ l b, e = .callback l b) : s.MidiSilent t := by
  refine ⟨hmpc, es, ht, fun d st msg hmem => ?_⟩
  obtain ⟨l, b, heq⟩ := hes _ hmem
  cases heq

theorem State.MidiSilent.output (h : s.MidiSilent t) {e : Event} (he : ∀ d st msg, e ≠ .emit d st msg) :
    s.MidiSilent (t.output e) :=
  h.trans ⟨fun st => by cases st <;> rfl, [e], rfl, fun d st msg hmem => he d st msg (List.mem_singleton.mp hmem).symm⟩

theorem Event.IsRead.ne_emit {e : Event} (h : e.IsRead) (d : Dest) (st : Stream) (msg : List Byte) :
    e ≠ .emit d st msg := by
  rcases h with ⟨o, v, rfl⟩ | ⟨r, v, rfl⟩ <;> exact Event.noConfusion

theorem portEvent_isRead (q : PiuId) (x : Port) (v : Byte) : (portEvent q x v).IsRead := by
  cases q
  · cases x <;> exact .inl ⟨_, _, rfl⟩
  · cases x <;> exact .inr ⟨_, _, rfl⟩

theorem State.midiSilent_takeDraw (s : State) : s.MidiSilent s.takeDraw :=
  .of_eq (fun st => by cases st <;> rfl) rfl

theorem State.midiSilent_netUpdate (s : State) : s.MidiSilent s.netUpdate := by
  rw [State.netUpdate_eq]
  exact .of_callbacks (fun st => by cases st <;> rfl) rfl (netReports_callback _)

/-- A unit replaced, then `PIU_UPDATE()`: the form of every write to the parallel interface. -/
theorem State.midiSilent_setPiu_piuUpdate (s : State) (q : PiuId) (p : Piu) :
    s.MidiSilent (s.setPiu q p).piuUpdate := by
  obtain ⟨-, -, es, htrace, hes⟩ := (s.setPiu q p).piuUpdate_piuFrame
  rw [State.setPiu_trace] at htrace
  exact .of_callbacks (PiuReach.setPiu_piuUpdate q s p).mpc htrace hes

theorem State.midiSilent_piuWrite (s : State) (q : PiuId) (x : Port) (v : Byte) : s.MidiSilent (s.piuWrite q x v) := by
  unfold State.piuWrite
  split
  · exact .refl s
  · exact s.midiSilent_setPiu_piuUpdate q _

theorem State.midiSilent_piuRead (s : State) (q : PiuId) (x : Port) : s.MidiSilent (s.piuRead q x) := by
  have he (v : Byte) := (portEvent_isRead q x v).ne_emit
  unfold State.piuRead State.piuReadPlain
  split
  · exact (s.midiSilent_setPiu_piuUpdate q _).output (he _)
  · split
    · exact (State.MidiSilent.refl s).output (he _)
    · split
      · exact (State.MidiSilent.refl s).output (he _)
      · exact s.midiSilent_takeDraw.output (he _)

theorem State.midiSilent_pitTickWith (T : TickMode) (s : State) : s.MidiSilent (s.pitTickWith T) := by
  obtain ⟨-, -, es, htrace, hes⟩ := s.tickedTo_pitTickWith T
  obtain ⟨hframe, -⟩ := reaches_timerClock_pitTickWith T s
  exact .of_callbacks (fun st => by rw [hframe]; cases st <;> rfl) htrace hes

theorem State.midiSilent_advanceSamples (P : Params) (n : Nat) (s : State) :
    s.MidiSilent (State.advanceSamples P n s) := by
  induction n generalizing s with
  | zero => exact .refl s
  | succ n ih =>
    have hfm (x : Fm) : s.MidiSilent (s.setFm x) := .of_eq (fun st => by cases st <;> rfl) rfl
    exact ((hfm _).output (e := .frame _ _) (by simp)).trans (ih _)

/-! ### Every step -/

/-- Both classifiers are sound. -/
def State.MidiSound (s : State) : Prop :=
  ∀ st, (s.mpc st).Sound

/-- `t` comes after `s` with both classifiers sound, and the messages output since are framed. -/
def State.FramesTo (s t : State) : Prop :=
  t.MidiSound ∧ ∃ es, t.trace = s.trace ++ es ∧ EmitsFramed es

theorem State.MidiSound.setMpc (h : s.MidiSound) (st : Stream) (hm : m.Sound) : (s.setMpc st m).MidiSound := by
  intro st'
  cases st <;> cases st'
  · exact hm
  · exact h .host
  · exact h .midiIn
  · exact hm

theorem State.MidiSilent.framesTo (h : s.MidiSilent t) (hs : s.MidiSound) : s.FramesTo t := by
  obtain ⟨hmpc, es, htrace, hes⟩ := h
  exact ⟨fun st => by rw [hmpc st]; exact hs st, es, htrace, .of_not_emit hes⟩

theorem State.MidiSound.midiFeedWith (h : s.MidiSound) (st : Stream) (b : Byte) :
    s.FramesTo (s.midiFeedWith mpcTables st b) := by
  obtain ⟨hsound, hframed⟩ := (h st).feed st b
  rw [State.midiFeedWith_eq]
  exact ⟨h.setMpc st hsound, _, rfl, hframed⟩

theorem State.MidiSound.setFlow (h : s.MidiSound) (st : Stream) (flow : BitVec 3) : s.FramesTo (s.setFlow st flow) :=
  ⟨h.setMpc st (h st), [], by rw [State.setFlow, State.setMpc_trace, List.append_nil], .nil⟩

/-- Every shared operation keeps the classifiers sound, at the default configuration fields. -/
theorem Moves.framesTo {w : Bool} (hm : Moves params w s t) (h : s.MidiSound) : s.FramesTo t := by
  cases hm with
  | same => exact (State.MidiSilent.refl s).framesTo h
  | fm | refuse | latch | control | pitWrite =>
    exact (State.MidiSilent.of_eq (fun st => by cases st <;> rfl) rfl).framesTo h
  | output e he => exact ((State.MidiSilent.refl s).output he.ne_emit).framesTo h
  | draw e he => exact (s.midiSilent_takeDraw.output he.ne_emit).framesTo h
  | pitRead n =>
    have hpit (p : Pit) : s.MidiSilent (s.setPit p) := .of_eq (fun st => by cases st <;> rfl) rfl
    exact ((hpit _).output (e := .portRead _ _) (by simp)).framesTo h
  | tick => exact (s.midiSilent_pitTickWith _).framesTo h
  | piuWrite q x v => exact (s.midiSilent_piuWrite q x v).framesTo h
  | piuRead q x => exact (s.midiSilent_piuRead q x).framesTo h
  | piuWriteC q | piuSetMode q | piuBitSet q => exact (s.midiSilent_setPiu_piuUpdate q _).framesTo h
  | writeTcr v =>
    have hnet (n : Net) : s.MidiSilent (s.setNet n) := .of_eq (fun st => by cases st <;> rfl) rfl
    exact ((hnet _).trans (State.midiSilent_netUpdate _)).framesTo h
  | midiFeed st b => exact h.midiFeedWith st b
  | setFlow st flow => exact h.setFlow st flow
  | samples n => exact (s.midiSilent_advanceSamples params n).framesTo h
  | reset => exact ⟨fun st => by cases st <;> exact Mpc.reset_sound, [], (List.append_nil _).symm, .nil⟩

/-- Settles O13: a step does nothing or makes a move, of which a MIDI byte alone reaches a classifier's message. -/
theorem classifiersStaySound : Obligations.ClassifiersStaySound := by
  intro s t hmidiIn hhost h
  have hs : s.MidiSound := fun st => by cases st <;> assumption
  have hst : s.FramesTo t := by
    rcases step_next h with ⟨-, rfl⟩ | ⟨a, rest, i, -, -, he⟩
    · exact (State.MidiSilent.refl _).framesTo hs
    · exact (exec_moves he).framesTo hs
  obtain ⟨hsound, hframed⟩ := hst
  exact ⟨hsound .midiIn, hsound .host, hframed⟩

end Sys2Proof.Machine

/-! One MIDI byte as an operation (spec/45_midi_classifier.md R341 to R346, R352 to R357): a status byte for every table
set, then the rows with the default tables (log 11). -/

namespace Sys2Proof.Machine

variable {b : Byte} {s : State} {st : Stream}

/-! ### Status and data bytes -/

theorem isStatus_of_le (h : 128 ≤ b.toNat) : isStatus b = true := by
  revert b
  decide

theorem isStatus_data (d : BitVec 7) : isStatus (0#1 ++ d) = false := by
  revert d
  decide

theorem data_eq_setWidth (d : BitVec 7) : 0#1 ++ d = d.setWidth 8 := by
  revert d
  decide

/-! ### Any table set -/

/-- A byte for any table set: the classifier of the stream and the outputs change, and nothing else. -/
theorem State.midiFeedWith_frame (T : MpcTables) (s : State) (st : Stream) (b : Byte) :
    s.midiFeedWith T st b =
      { s.setMpc st { s.mpc st with
            state := T.nextState (s.mpc st).state b
            acc := ((s.mpc st).feed T st b).1.acc } with
        trace := s.trace ++ ((s.mpc st).feed T st b).2 } := by
  rw [State.midiFeedWith_eq, Mpc.feed_fst]

/-- Settles O54: the outputs are at most one byte to the SysEx engine, then deliveries of the byte itself. -/
theorem statusByteResetsForAnyTables : Obligations.StatusByteResetsForAnyTables := by
  intro T st b s hle
  have hb := isStatus_of_le hle
  obtain ⟨es, hes, hemit⟩ := Mpc.feed_status_events T st (s.mpc st) hb
  refine ⟨((s.mpc st).feed T st b).2, ?_, ?_⟩
  · rw [State.midiFeedWith_frame, Mpc.feed_status_acc T st _ hb, T.nextState_of_status _ hb]
  · rw [hes]
    refine ⟨fun d st' msg hmem => ?_, ?_, fun hsysex => List.mem_append_left _ ?_⟩
    · rcases List.mem_append.mp hmem with hmem | hmem
      · exact absurd (MpcTables.eq_sysex_of_mem hmem) Event.noConfusion
      · obtain ⟨d', msg', heq, hmsg⟩ := hemit _ hmem
        injection heq with _ hst heq
        exact ⟨hst, heq ▸ hmsg⟩
    · have hnone : (es.filter fun e => e = .sysex st b) = [] := by
        refine List.filter_eq_nil_iff.mpr fun e he => ?_
        obtain ⟨d, msg, rfl, -⟩ := hemit e he
        simp
      rw [List.filter_append, hnone, List.append_nil]
      exact (List.length_filter_le _ _).trans (MpcTables.length_sysexBytes_le ..)
    · have hdue : T.toSysex (s.mpc st).state (T.nextState (s.mpc st).state b) b = true := by
        rw [MpcTables.toSysex, hb, hsysex]; rfl
      rw [MpcTables.sysexBytes, if_pos hdue]
      exact List.mem_singleton_self _

/-! ### The status rows -/

/-- The state that a status byte leads to `q` leaves, with its outputs (R341, R344, R345, R355). -/
def State.afterStatus (s : State) (st : Stream) (q : Nat) (b : Byte) : State :=
  { s.setMpc st { s.mpc st with state := q, acc := [b] } with
    trace := s.trace ++ (if (s.mpc st).state = 20 ∨ q = 20 then [.sysex st b] else [])
      ++ if q = 28 ∨ q = 31 then forwarded st (s.mpc st).flow [b] else [] }

theorem State.midiFeed_status {q : Nat} (hb : isStatus b = true) (hq : mpcTables.nextState (s.mpc st).state b = q) :
    s.midiFeed st b = s.afterStatus st q b := by
  rw [State.midiFeed, State.midiFeedWith_eq, params_tables, Mpc.feed_status st _ hb, hq, ← List.append_assoc]
  rfl

/-- The byte of a channel status is its class and its channel (R120). -/
theorem channelStatus_eq (hi ch : BitVec 4) : hi ++ ch = (hi ++ 0#4) + ch.setWidth 8 := by
  revert hi ch
  decide

theorem isStatus_channelStatus {hi : BitVec 4} (h : 8 ≤ hi) (ch : BitVec 4) : isStatus (hi ++ ch) = true := by
  revert hi ch
  decide

/-- A channel status leads to the state of its class (R352). -/
theorem nextState_channelStatus {hi : BitVec 4} (hhi : 8 ≤ hi ∧ hi ≠ 15) (ch : BitVec 4) (q : Nat) :
    mpcTables.nextState q (hi ++ ch) = statusNext hi := by
  have hclass : (hi ++ ch).extractLsb 7 4 = hi := BitVec.extractLsb'_append_eq_left
  rw [mpcTables.nextState_of_status _ (isStatus_channelStatus hhi.1 ch), hclass, if_neg hhi.2]
  rfl

/-- A real-time byte is its class and its low three bits (R120). -/
theorem realTime_eq (rt : BitVec 3) : 0x1F#5 ++ rt = 0xF8 + rt.setWidth 8 := by
  revert rt
  decide

/-- A channel status row: the state is the class's (R341, R352). -/
theorem exec_channelStatus {i : Instr} {hi : BitVec 4} (hhi : 8 ≤ hi ∧ hi ≠ 15) (ch : BitVec 4)
    (hrow : exec i s = .next (s.midiFeed st (hi ++ ch))) :
    exec i s = .next (s.afterStatus st (statusNext hi) ((hi ++ 0#4) + ch.setWidth 8)) := by
  rw [hrow, State.midiFeed_status (isStatus_channelStatus hhi.1 ch) (nextState_channelStatus hhi ch _),
    channelStatus_eq]

/-- A system status row (R341, R353). -/
theorem exec_systemStatus {i : Instr} (b : Byte) (hb : isStatus b = true) (hsys : b.extractLsb 7 4 = 15)
    (hrow : exec i s = .next (s.midiFeed st b)) :
    exec i s = .next (s.afterStatus st (sysNext (b.extractLsb 3 0)) b) := by
  have hnext : mpcTables.nextState (s.mpc st).state b = sysNext (b.extractLsb 3 0) := by
    rw [mpcTables.nextState_of_status _ hb, if_pos hsys]
    rfl
  rw [hrow, State.midiFeed_status hb hnext]

theorem exec_realTime (st : Stream) (rt : BitVec 3) (s : State) :
    exec (.midiRealTime st rt) s = .next (s.afterStatus st 31 (0xF8 + rt.setWidth 8)) := by
  have hfields : ∀ rt : BitVec 3, isStatus (0xF8 + rt.setWidth 8) = true ∧ (0xF8 + rt.setWidth 8).extractLsb 7 4 = 15#4
      ∧ sysNext ((0xF8 + rt.setWidth 8).extractLsb 3 0) = 31 := by decide
  obtain ⟨hb, hsys, hnext⟩ := hfields rt
  rw [exec_systemStatus _ hb hsys (exec_feeds rfl (realTime_eq rt)), hnext]

/-- Settles O55, row by row. -/
theorem midiStatusRows : Obligations.MidiStatusRows := by
  intro st ch rt s p hp
  simp only [List.mem_cons, List.not_mem_nil, or_false] at hp
  rcases hp with rfl | rfl | rfl | rfl | rfl | rfl | rfl | rfl | rfl | rfl | rfl | rfl | rfl | rfl | rfl | rfl
  · exact exec_channelStatus (hi := 0x8) (by decide) ch rfl
  · exact exec_channelStatus (hi := 0x9) (by decide) ch rfl
  · exact exec_channelStatus (hi := 0xA) (by decide) ch rfl
  · exact exec_channelStatus (hi := 0xB) (by decide) ch rfl
  · exact exec_channelStatus (hi := 0xC) (by decide) ch rfl
  · exact exec_channelStatus (hi := 0xD) (by decide) ch rfl
  · exact exec_channelStatus (hi := 0xE) (by decide) ch rfl
  · exact exec_systemStatus 0xF0 rfl rfl rfl
  · exact exec_systemStatus 0xF1 rfl rfl rfl
  · exact exec_systemStatus 0xF2 rfl rfl rfl
  · exact exec_systemStatus 0xF3 rfl rfl rfl
  · exact exec_systemStatus 0xF4 rfl rfl rfl
  · exact exec_systemStatus 0xF5 rfl rfl rfl
  · exact exec_systemStatus 0xF6 rfl rfl rfl
  · exact exec_systemStatus 0xF7 rfl rfl rfl
  · exact exec_realTime st rt s

/-! ### A data byte -/

/-- From a state past 27 a data byte leads to state 0 (R354). -/
theorem dataNext_of_le {q : Nat} (h : 28 ≤ q) (b : Byte) : dataNext q b = 0 :=
  List.getD_eq_default _ _ h

/-- Settles O56, by the class of the state the byte leads to. -/
theorem midiDataByte : Obligations.MidiDataByte := by
  intro st d s
  have hb := isStatus_data d
  have hnext : mpcTables.nextState (s.mpc st).state (0#1 ++ d) = dataNext (s.mpc st).state (0#1 ++ d) :=
    mpcTables.nextState_of_data _ hb
  refine ⟨dataNext (s.mpc st).state (0#1 ++ d), ((s.mpc st).feed mpcTables st (0#1 ++ d)).1.acc,
    ((s.mpc st).feed mpcTables st (0#1 ++ d)).2, ?_, ?_, fun h => dataNext_of_le (by omega) _, ?_⟩
  · rw [← hnext]
    exact congrArg _ (State.midiFeedWith_frame mpcTables s st _)
  · intro p hp h
    have hrow : dataNext p.1 0 = p.2 := by
      clear h
      revert p
      decide
    rw [h]
    exact hrow
  · rw [← data_eq_setWidth]
    dsimp only
    rw [← keepStatus_eq]
    refine ⟨fun hq => ?_, fun hq => ?_, fun hq => ?_, fun hq => ?_, fun hq => ?_⟩
    · rw [Mpc.feed_discarded st _ hb hq]
      exact ⟨rfl, rfl⟩
    · rw [Mpc.feed_sysex st _ hb hq]
      exact ⟨rfl, rfl⟩
    · rw [Mpc.feed_collected st _ hb hq]
      exact ⟨rfl, rfl⟩
    · rw [Mpc.feed_completed st _ hb (EndsThree.completes hq)]
      exact ⟨rfl, rfl⟩
    · rw [Mpc.feed_completed st _ hb (EndsTwo.completes hq)]
      exact ⟨rfl, rfl⟩

end Sys2Proof.Machine

/-! Runs of MIDI rows (spec/45_midi_classifier.md R344 to R346, R353, R356, R358; default tables, log 11). -/

namespace Sys2Proof.Machine

variable {s : State} {st : Stream}

/-! ### Several bytes to one classifier -/

/-- The classifier after some bytes, and the outputs, in order, with the default tables. -/
def Mpc.feedAll (st : Stream) : List Byte → Mpc → Mpc × List Event
  | [], m => (m, [])
  | b :: bs, m =>
    ((Mpc.feedAll st bs (m.feed mpcTables st b).1).1,
      (m.feed mpcTables st b).2 ++ (Mpc.feedAll st bs (m.feed mpcTables st b).1).2)

theorem Mpc.feedAll_nil (st : Stream) (m : Mpc) : Mpc.feedAll st [] m = (m, []) :=
  rfl

/-- One byte more, from what it makes of the classifier. -/
theorem Mpc.feedAll_cons {m m' : Mpc} {b : Byte} {es : List Event} (h : m.feed mpcTables st b = (m', es))
    (bs : List Byte) :
    Mpc.feedAll st (b :: bs) m = ((Mpc.feedAll st bs m').1, es ++ (Mpc.feedAll st bs m').2) := by
  rw [Mpc.feedAll, h]

/-- The row feeds the byte to the classifier of the stream, from every state. -/
def Instr.Feeds (st : Stream) (i : Instr) (b : Byte) : Prop :=
  ∀ s, exec i s = .next (s.midiFeed st b)

/-- A run of rows that feed bytes to a stream is those bytes fed to its classifier. -/
theorem runOperations_feeds {is : List Instr} {bs : List Byte} (h : List.Forall₂ (Instr.Feeds st) is bs)
    (hm : s.mark = none) :
    ∃ t, runOperations is s = .next t ∧ t.trace = s.trace ++ (Mpc.feedAll st bs (s.mpc st)).2
      ∧ t.mpc st = (Mpc.feedAll st bs (s.mpc st)).1 := by
  induction h generalizing s with
  | nil => exact ⟨s, rfl, (List.append_nil _).symm, rfl⟩
  | @cons i b is bs hi _ ih =>
    have hfeed : s.midiFeed st b = { s.setMpc st ((s.mpc st).feed mpcTables st b).1 with
        trace := s.trace ++ ((s.mpc st).feed mpcTables st b).2 } := State.midiFeedWith_eq mpcTables s st b
    have hmark : (s.midiFeed st b).mark = none := by rw [hfeed, State.setMpc_mark, hm]
    have hmpc : (s.midiFeed st b).mpc st = ((s.mpc st).feed mpcTables st b).1 := by
      rw [hfeed]
      exact State.mpc_setMpc ..
    obtain ⟨t, hrun, htrace, htmpc⟩ := ih hmark
    refine ⟨t, (runOperations_cons hm (hi s)).trans hrun, ?_, ?_⟩
    · rw [htrace, hmpc, hfeed, List.append_assoc]
      rfl
    · rw [htmpc, hmpc]
      rfl

theorem Instr.Feeds.midiData (st : Stream) (d : BitVec 7) : Instr.Feeds st (.midiData st d) (d.setWidth 8) :=
  fun _ => exec_feeds rfl (data_eq_setWidth d)

theorem isStatus_setWidth (d : BitVec 7) : isStatus (d.setWidth 8) = false :=
  data_eq_setWidth d ▸ isStatus_data d

/-! ### A note-on and its running status -/

/-- The two data bytes of a note-on, from the state of its status byte or of the last note: one message, and the status
byte kept (R345, R346). -/
theorem Mpc.feedAll_note {q : Nat} {b : Byte} {flow : BitVec 3} (hq : q = 4 ∨ q = 6) (hb : isStatus b = true)
    (n v : BitVec 7) (bs : List Byte) :
    Mpc.feedAll st (n.setWidth 8 :: v.setWidth 8 :: bs) ⟨q, [b], flow⟩ =
      ((Mpc.feedAll st bs ⟨6, [b], flow⟩).1,
        forwarded st flow [b, n.setWidth 8, v.setWidth 8] ++ (Mpc.feedAll st bs ⟨6, [b], flow⟩).2) := by
  have hnote : dataNext q (n.setWidth 8) = 5 := by rcases hq with rfl | rfl <;> rfl
  have hfirst : Mpc.feed mpcTables st ⟨q, [b], flow⟩ (n.setWidth 8) = (⟨5, [b, n.setWidth 8], flow⟩, []) := by
    rw [Mpc.feed_collected st _ (isStatus_setWidth n) (by rw [hnote]; decide), hnote]
    rfl
  have hsecond : Mpc.feed mpcTables st ⟨5, [b, n.setWidth 8], flow⟩ (v.setWidth 8)
      = (⟨6, [b], flow⟩, forwarded st flow [b, n.setWidth 8, v.setWidth 8]) := by
    have hends : EndsThree (dataNext 5 (v.setWidth 8)) := .inr (.inl rfl)
    have hkept : keepStatus [b, n.setWidth 8, v.setWidth 8] = [b] := if_pos hb
    rw [Mpc.feed_completed st _ (isStatus_setWidth v) hends.completes]
    exact Prod.ext (congrArg (Mpc.mk 6 · flow) hkept) rfl
  rw [Mpc.feedAll_cons hfirst, Mpc.feedAll_cons hsecond, List.nil_append]

theorem noteOn_eq (ch : BitVec 4) : 0x90 + ch.setWidth 8 = 0x9#4 ++ ch :=
  (channelStatus_eq 0x9 ch).symm

/-- The status byte of a note-on: what was being collected is dropped (R341, R352). -/
theorem Mpc.feed_noteOn (st : Stream) (m : Mpc) (ch : BitVec 4) :
    m.feed mpcTables st (0x90 + ch.setWidth 8) =
      (⟨4, [0x90 + ch.setWidth 8], m.flow⟩, if m.state = 20 then [.sysex st (0x90 + ch.setWidth 8)] else []) := by
  have hnext : mpcTables.nextState m.state (0x9#4 ++ ch) = 4 := nextState_channelStatus (by decide) ch _
  rw [noteOn_eq, Mpc.feed_status st m (isStatus_channelStatus (by decide) ch), hnext]
  simp

/-- Settles O58: the status byte, then two notes. -/
theorem noteOnRunningStatus : Obligations.NoteOnRunningStatus := by
  intro st ch n v n' v' s hm
  have hb : isStatus (0x90 + ch.setWidth 8) = true := by
    rw [noteOn_eq]
    exact isStatus_channelStatus (by decide) ch
  have hrows : List.Forall₂ (Instr.Feeds st)
      [.midiNoteOn st ch, .midiData st n, .midiData st v, .midiData st n', .midiData st v']
      [0x90 + ch.setWidth 8, n.setWidth 8, v.setWidth 8, n'.setWidth 8, v'.setWidth 8] := by
    refine .cons (fun _ => exec_feeds rfl (noteOn_eq ch).symm) ?_
    exact .cons (.midiData st n) (.cons (.midiData st v) (.cons (.midiData st n') (.cons (.midiData st v') .nil)))
  obtain ⟨t, hrun, htrace, hmpc⟩ := runOperations_feeds hrows hm
  rw [Mpc.feedAll_cons (Mpc.feed_noteOn st _ ch), Mpc.feedAll_note (.inl rfl) hb, Mpc.feedAll_note (.inr rfl) hb,
    Mpc.feedAll_nil] at htrace hmpc
  refine ⟨t, hrun, ?_, hmpc⟩
  rw [htrace, List.append_nil, List.append_assoc, List.append_assoc]

/-! ### A System-Exclusive message -/

/-- Data bytes of a System-Exclusive message each go to the SysEx engine, and the message goes on (R344). -/
theorem Mpc.feedAll_sysexData (ds : List (BitVec 7)) {m : Mpc} (hm : m.state = 20) (bs : List Byte) :
    ∃ acc, Mpc.feedAll st (ds.map (·.setWidth 8) ++ bs) m =
      ((Mpc.feedAll st bs ⟨20, acc, m.flow⟩).1,
        ds.map (fun d => .sysex st (d.setWidth 8)) ++ (Mpc.feedAll st bs ⟨20, acc, m.flow⟩).2) := by
  induction ds generalizing m with
  | nil => exact ⟨m.acc, by rw [← hm]; rfl⟩
  | cons d ds ih =>
    have hfirst := Mpc.feed_sysex st m (isStatus_setWidth d) (by rw [hm]; rfl)
    obtain ⟨acc, hrest⟩ := ih (m := { m with state := 20, acc := [] }) rfl
    refine ⟨acc, ?_⟩
    rw [List.map_cons, List.cons_append, Mpc.feedAll_cons hfirst, hrest]
    rfl

/-- The byte that opens a System-Exclusive message goes to the SysEx engine once (R344, R353). -/
theorem Mpc.feed_sysexStart (st : Stream) (m : Mpc) :
    m.feed mpcTables st 0xF0 = (⟨20, [0xF0], m.flow⟩, [.sysex st 0xF0]) := by
  have hnext : mpcTables.nextState m.state 0xF0 = 20 := rfl
  rw [Mpc.feed_status st m rfl, hnext]
  simp

/-- The byte that ends it goes there as the last one (R344, R353). -/
theorem Mpc.feed_sysexEnd (st : Stream) {m : Mpc} (hm : m.state = 20) :
    m.feed mpcTables st 0xF7 = (⟨30, [0xF7], m.flow⟩, [.sysex st 0xF7]) := by
  have hnext : mpcTables.nextState m.state 0xF7 = 30 := rfl
  rw [Mpc.feed_status st m rfl, hnext]
  simp [hm]

/-- Settles O59: 0xF0 enters the state, the data bytes stay in it, 0xF7 leaves it. -/
theorem sysexReachesEngineInOrder : Obligations.SysexReachesEngineInOrder := by
  intro st ds s hm
  have hdata : List.Forall₂ (Instr.Feeds st) (ds.map (.midiData st)) (ds.map (·.setWidth 8)) := by
    rw [List.forall₂_map_left_iff, List.forall₂_map_right_iff, List.forall₂_same]
    exact fun d _ => .midiData st d
  have hrows : List.Forall₂ (Instr.Feeds st) (.midiSysEx st :: ds.map (.midiData st) ++ [.midiEndOfExclusive st])
      (0xF0 :: (ds.map (·.setWidth 8) ++ [0xF7])) :=
    .cons (fun _ => rfl) (List.rel_append hdata (.cons (fun _ => rfl) .nil))
  obtain ⟨t, hrun, htrace, hmpc⟩ := runOperations_feeds hrows hm
  obtain ⟨acc, hall⟩ := Mpc.feedAll_sysexData (st := st) ds (m := ⟨20, [0xF0], (s.mpc st).flow⟩) rfl [0xF7]
  rw [Mpc.feedAll_cons (Mpc.feed_sysexStart st _), hall, Mpc.feedAll_cons (Mpc.feed_sysexEnd st rfl),
    Mpc.feedAll_nil] at htrace hmpc
  refine ⟨t, hrun, ?_, hmpc⟩
  rw [htrace, List.append_nil, List.append_assoc, List.append_assoc]

end Sys2Proof.Machine

/-! Records that are no operation, the steps that run none, and the absence of faults (spec/60_exceptions.md R370, R374,
R376, spec/70_reset_and_hazards.md R394, R410, spec/93_implementation_defined.md U9). -/

namespace Sys2Proof

/-- A record decodes when its word fits its path (R370, R376). -/
theorem decode_of_fits {a : Access} (h : a.fits = true) : decode a = .ok (decodeWord a.path a.word) :=
  if_pos h

/-- A record whose word does not fit its path is no operation (U9, log 22). -/
theorem decode_error_of_not_fits {a : Access} (h : a.fits = false) : ∃ e, decode a = .error e := by
  simp only [decode, h, Bool.false_eq_true, if_false]
  split
  · exact ⟨_, rfl⟩
  · exact ⟨_, rfl⟩

/-- Settles O2: the two branches of the decoder; every word it takes is a well-formed operation. -/
theorem fittingRecordsDecode : Obligations.FittingRecordsDecode := by
  intro a
  exact ⟨fun h => ⟨_, decode_of_fits h, decodeWord_wellFormed a.path a.word⟩, decode_error_of_not_fits⟩

end Sys2Proof

namespace Sys2Proof.Machine

theorem step_of_idle {s : State} (hp : s.pending = []) : step s = .next s := by
  simp only [step, hp]

theorem step_of_undecodable {s : State} {a : Access} {rest : List Access} {e : DecodeError}
    (hp : s.pending = a :: rest) (hd : decode a = .error e) : step s = .refused (.undecodable e) := by
  simp only [step, hp, hd]

theorem runsAfterRefusal_eq_false {i : Instr} (h : i ≠ .reset) : runsAfterRefusal i = false := by
  cases i with
  | reset => exact absurd rfl h
  | _ => rfl

/-- While the mark is set, an operation other than RESET is refused (R374). -/
theorem runOperation_of_marked {s : State} {i : Instr} {r : RefuseReason} (hm : s.mark = some r) (h : i ≠ .reset) :
    runOperation i s = .refused (.afterRefusal r) := by
  simp only [runOperation, hm, runsAfterRefusal_eq_false h, Bool.false_eq_true, if_false]

/-- RESET runs whether or not the mark is set (R374, R394). -/
theorem runOperation_reset (s : State) : runOperation .reset s = .next (s.resetOp params) := by
  cases hm : s.mark with
  | none => exact runOperation_of_unmarked hm .reset
  | some r =>
    simp only [runOperation, hm]
    rfl

/-- Settles O6: a step on each of the three kinds; `resetOp` clears the mark. -/
theorem stopsAndIdleSteps : Obligations.StopsAndIdleSteps := by
  refine ⟨fun _ => step_of_idle, fun _ _ _ _ => step_of_undecodable, fun s a rest i r hp hd hm => ⟨fun hi => ?_, ?_⟩⟩
  · exact (step_of_decode hp hd).trans (runOperation_of_marked (s := s.setPending rest) hm hi)
  · rintro rfl
    exact ⟨_, (step_of_decode hp hd).trans (runOperation_reset _), State.resetOp_mark params _⟩

/-- Every operation answers a next state (R370). -/
theorem exec_completes (i : Instr) (s : State) : ∃ t, exec i s = .next t :=
  exec_eq_execWith i s ▸ execWith_completes params i s

/-- The model's type of faults has no value (R370). -/
theorem step_ne_fault (s : State) (f : Fault) : step s ≠ .fault f :=
  nomatch f

/-- Settles O7: the meaning of every operation is a next state, every word that fits decodes, and no fault exists. -/
theorem everyOperationCompletes : Obligations.EveryOperationCompletes :=
  ⟨exec_completes, fun _ h => ⟨_, decode_of_fits h⟩, step_ne_fault⟩

end Sys2Proof.Machine

/-! The state RESET leaves, unit by unit (spec/70_reset_and_hazards.md R390, R391, R394; log 7, 17, 24). -/

namespace Sys2Proof.Machine

theorem Fm.reset_rangesSound : Fm.reset.RangesSound :=
  Fm.resetFor_params ▸ Fm.resetFor_rangesSound params

/-- Settles O16: the invariant of each unit at its reset value. -/
theorem resetMeetsInvariants : Obligations.ResetMeetsInvariants := by
  obtain ⟨hpair, hnet⟩ := State.reset_settled
  exact ⟨Fm.reset_envelopeSound, Fm.reset_derivedSound, Fm.reset_rangesSound, hpair, hnet, Pit.reset_sound,
    Mpc.reset_sound, Mpc.reset_sound⟩

theorem exec_reset (s : State) : exec .reset s = .next (s.resetOp params) := by
  rfl

/-- Note code 0 is a used one, so the default key index of a reset channel is no open value (log 7, 24). -/
theorem Channel.reset_kci : Channel.reset.kci = 0 :=
  keyIndex_used 0 0 (by decide)

section units

variable (s : State)

theorem State.resetOp_params_fm : (s.resetOp params).fm = Fm.reset := by
  rw [State.resetOp_fm, Fm.resetFor_params]

theorem State.resetOp_chan (c : BitVec 3) : (s.resetOp params).fm.chan c = Channel.reset := by
  rw [State.resetOp_params_fm, Fm.chan_reset]

theorem State.resetOp_op (c : BitVec 3) (sl : BitVec 2) : (s.resetOp params).fm.op c sl = Operator.reset := by
  rw [State.resetOp_params_fm, Fm.op_reset]

theorem State.resetOp_counter (P : Params) (n : CounterId) : (s.resetOp P).pit.get n = Counter.reset := by
  cases n <;> rfl

theorem State.resetOp_piu (P : Params) (q : PiuId) : (s.resetOp P).piu q = Piu.reset := by
  cases q <;> rfl

theorem State.resetOp_mpc (P : Params) (st : Stream) : (s.resetOp P).mpc st = Mpc.reset := by
  cases st <;> rfl

end units

/-- Settles O17: every unit is at its reset value, and those are the listed ones; of `kci` that takes
`Channel.reset_kci`. -/
theorem resetOperation : Obligations.ResetOperation := by
  intro s
  refine ⟨s.resetOp params, exec_reset s, State.resetOp_mark _ s, State.resetOp_trace _ s, State.resetOp_pending _ s,
    State.resetOp_draws _ s, ?fm, fun c => ?chan, s.resetOp_op, s.resetOp_counter _, rfl, s.resetOp_piu _, rfl,
    s.resetOp_mpc _⟩
  case fm =>
    rw [State.resetOp_params_fm]
    rfl
  case chan =>
    rw [State.resetOp_chan, ← Channel.reset_kci]
    rfl

end Sys2Proof.Machine
